-- ==== Sys2Proof/Word.lean ====
section
/-! DEFINITION. The word types of the knapsack-crypto CORE (00_scope.md R5, R7, R8). -/

namespace Sys2Proof

/-- A BigInt value: an unsigned integer of W = 1024 bits (R5, R20, R21). -/
abbrev Big := BitVec 1024

/-- The 256-bit plaintext block held by BLK (R5, R39). -/
abbrev Block := BitVec 256

/-- A 32-bit word: a command word, or what the host window carries (R50, R80). -/
abbrev Word := BitVec 32

/-- One byte of a byte stream (R41, R42). -/
abbrev Byte := BitVec 8

end Sys2Proof
end

