-- ==== Sys2Proof/Syntax.lean ====
section
/-! DEFINITION. The 24 commands of 30_encoding.md R83, one constructor per row of spec/opcode_table.json.
Operands stand in the field order f1, f2, f3, f4 of R83. -/

namespace Sys2Proof

/-- A BigInt register number, 0 to 15 (R20, R81). -/
abbrev Reg := Fin 16

/-- A key slot index, 0 to 255 (R81). -/
abbrev Slot := Fin 256

/-- The key bank of KLD and KST: 0 is KPRIV, 1 is KPUB (R81). -/
inductive Bank where
  | priv
  | pub
deriving DecidableEq, Repr

/-- The commands (R83). The immediate of LDI and the shift amounts are numbers (R84); WellFormed says which of
them a command word can hold. -/
inductive Instr where
  /-- MOV Rd, Ra (R120) -/
  | mov (d a : Reg)
  /-- LDI Rd, #imm16 (R121) -/
  | ldi (d : Reg) (imm : Nat)
  /-- LOAD Rd (R122) -/
  | load (d : Reg)
  /-- STORE Ra (R123) -/
  | store (a : Reg)
  /-- KLD Rd, bank[idx] (R124) -/
  | kld (d : Reg) (bank : Bank) (idx : Slot)
  /-- KST Ra, bank[idx] (R125) -/
  | kst (a : Reg) (bank : Bank) (idx : Slot)
  /-- LDBLK (R126) -/
  | ldblk
  /-- STBLK (R127) -/
  | stblk
  /-- ADD Ra, Rb (R102) -/
  | add (a b : Reg)
  /-- SUB Ra, Rb (R103) -/
  | sub (a b : Reg)
  /-- SHL Ra, #sh (R110) -/
  | shl (a : Reg) (sh : Nat)
  /-- SHR Ra, #sh (R111) -/
  | shr (a : Reg) (sh : Nat)
  /-- CMP Ra, Rb (R112) -/
  | cmp (a b : Reg)
  /-- TSTZ Ra (R113) -/
  | tstz (a : Reg)
  /-- REDUCE Rx, Rn (R141) -/
  | reduce (x n : Reg)
  /-- MULMOD Rd, Ra, Rb, Rn (R142) -/
  | mulmod (d a b n : Reg)
  /-- GCD Rd, Ra, Rb (R143) -/
  | gcd (d a b : Reg)
  /-- MODINV Rd, Rv, Rm (R150) -/
  | modinv (d v m : Reg)
  /-- VALSI Rd (R160) -/
  | valsi (d : Reg)
  /-- DERIVE Rv, Rm (R161) -/
  | derive (v m : Reg)
  /-- ENCRYPT Rd (R162) -/
  | encrypt (d : Reg)
  /-- DECRYPT Rc, Ru, Rm (R163) -/
  | decrypt (c u m : Reg)
  /-- FLUSH (R181) -/
  | flush
  /-- CLRE (R180) -/
  | clre
deriving DecidableEq, Repr

end Sys2Proof
end

