-- ==== Sys2Proof/WellFormed.lean ====
section
/-! DEFINITION. Which commands a command word can hold (30_encoding.md R81, R84). Register numbers, banks and slots
are in range by their types ("no field value is ever out of range"); the two number operands are checked. -/

namespace Sys2Proof

/-- The immediate of LDI is an integer 0..65535 (R84). -/
def immFits (imm : Nat) : Bool := decide (imm < 2 ^ 16)

/-- A shift amount is an integer 0..1023 (R84); larger ones do not exist (93_implementation_defined.md U10). -/
def shamtFits (sh : Nat) : Bool := decide (sh < 2 ^ 10)

/-- The command can be written as a command word. -/
def Instr.wellFormed : Instr → Bool
  | .ldi _ imm => immFits imm
  | .shl _ sh => shamtFits sh
  | .shr _ sh => shamtFits sh
  | .mov _ _ => true
  | .load _ => true
  | .store _ => true
  | .kld _ _ _ => true
  | .kst _ _ _ => true
  | .ldblk => true
  | .stblk => true
  | .add _ _ => true
  | .sub _ _ => true
  | .cmp _ _ => true
  | .tstz _ => true
  | .reduce _ _ => true
  | .mulmod _ _ _ _ => true
  | .gcd _ _ _ => true
  | .modinv _ _ _ => true
  | .valsi _ => true
  | .derive _ _ => true
  | .encrypt _ => true
  | .decrypt _ _ _ => true
  | .flush => true
  | .clre => true

end Sys2Proof
end

