-- ==== Sys2Proof/Decode.lean ====
section
/-! DEFINITION. Decoding a command word and writing one (30_encoding.md R80 to R91). Decoding reads no state (R80):
it is a function of the word alone, and rejects every word that is no command, by name. -/

namespace Sys2Proof

/-! ## Fields (R8, R12, R81) -/

/-- Bits hi down to lo of a word, as R8 defines `v[hi:lo]`. -/
def bits (w : Word) (hi lo : Nat) : Nat := w.toNat / 2 ^ lo % 2 ^ (hi - lo + 1)

/-- op = c[31:24] -/
def opField (w : Word) : Nat := bits w 31 24

/-- f1 = c[23:20] -/
def f1Field (w : Word) : Reg := Fin.ofNat 16 (bits w 23 20)

/-- f2 = c[19:16] -/
def f2Field (w : Word) : Reg := Fin.ofNat 16 (bits w 19 16)

/-- f3 = c[15:12] -/
def f3Field (w : Word) : Reg := Fin.ofNat 16 (bits w 15 12)

/-- f4 = c[11:8] -/
def f4Field (w : Word) : Reg := Fin.ofNat 16 (bits w 11 8)

/-- imm16 = c[15:0] -/
def immField (w : Word) : Nat := bits w 15 0

/-- sh = c[9:0] -/
def shField (w : Word) : Nat := bits w 9 0

/-- The number of a bank in the field c[8] (R81: 0 = KPRIV, 1 = KPUB). -/
def Bank.code : Bank → Nat
  | .priv => 0
  | .pub => 1

/-- bank = c[8] -/
def bankField (w : Word) : Bank := if bits w 8 8 = 0 then .priv else .pub

/-- idx = c[7:0] -/
def idxField (w : Word) : Slot := Fin.ofNat 256 (bits w 7 0)

/-! ## Decoding -/

/-- Why a word is no command. Either raises ILLEGAL_CMD (R80): the state does not tell them apart. -/
inductive DecodeError where
  /-- the opcode is none of the 24 of R85 (R86) -/
  | reservedOpcode
  /-- a bit that the format requires to be zero is 1 (R87) -/
  | mustBeZero
deriving DecidableEq, Repr

/-- The command, if bits hi down to lo (the bits its format requires to be zero, R82) are zero. -/
def ifZero (w : Word) (hi lo : Nat) (i : Instr) : Except DecodeError Instr :=
  if bits w hi lo = 0 then .ok i else .error .mustBeZero

/-- Decoding (R80, R83): the opcode chooses the row, the row's format the bits that must be zero (R82: Z 23:0,
R1 19:0, R2 15:0, R3 11:0, R4 7:0, RI 19:16, RS 19:10, RK 19:9). -/
def decode (w : Word) : Except DecodeError Instr :=
  match opField w with
  | 0x01 => ifZero w 15 0 (.mov (f1Field w) (f2Field w))
  | 0x02 => ifZero w 19 16 (.ldi (f1Field w) (immField w))
  | 0x03 => ifZero w 19 0 (.load (f1Field w))
  | 0x04 => ifZero w 19 0 (.store (f1Field w))
  | 0x05 => ifZero w 19 9 (.kld (f1Field w) (bankField w) (idxField w))
  | 0x06 => ifZero w 19 9 (.kst (f1Field w) (bankField w) (idxField w))
  | 0x07 => ifZero w 23 0 .ldblk
  | 0x08 => ifZero w 23 0 .stblk
  | 0x10 => ifZero w 15 0 (.add (f1Field w) (f2Field w))
  | 0x11 => ifZero w 15 0 (.sub (f1Field w) (f2Field w))
  | 0x12 => ifZero w 19 10 (.shl (f1Field w) (shField w))
  | 0x13 => ifZero w 19 10 (.shr (f1Field w) (shField w))
  | 0x14 => ifZero w 15 0 (.cmp (f1Field w) (f2Field w))
  | 0x15 => ifZero w 19 0 (.tstz (f1Field w))
  | 0x20 => ifZero w 15 0 (.reduce (f1Field w) (f2Field w))
  | 0x21 => ifZero w 7 0 (.mulmod (f1Field w) (f2Field w) (f3Field w) (f4Field w))
  | 0x22 => ifZero w 11 0 (.gcd (f1Field w) (f2Field w) (f3Field w))
  | 0x23 => ifZero w 11 0 (.modinv (f1Field w) (f2Field w) (f3Field w))
  | 0x30 => ifZero w 19 0 (.valsi (f1Field w))
  | 0x31 => ifZero w 15 0 (.derive (f1Field w) (f2Field w))
  | 0x32 => ifZero w 19 0 (.encrypt (f1Field w))
  | 0x33 => ifZero w 11 0 (.decrypt (f1Field w) (f2Field w) (f3Field w))
  | 0x3E => ifZero w 23 0 .flush
  | 0x3F => ifZero w 23 0 .clre
  | _ => .error .reservedOpcode

/-- The command of a row of spec/opcode_table.json: the word is w's low nbits bits, every bit above them zero. A
command is one 32-bit word (R80). -/
def decodeTableWord (nbits w : Nat) : Option Instr :=
  match decode (BitVec.ofNat 32 (w % 2 ^ nbits)) with
  | .ok i => some i
  | .error _ => none

/-! ## Encoding (R90) -/

/-- The word of a command of formats Z, R1, R2, R3, R4 (R90). -/
def wordR (op f1 f2 f3 f4 : Nat) : Word :=
  BitVec.ofNat 32 (op * 2 ^ 24 + f1 * 2 ^ 20 + f2 * 2 ^ 16 + f3 * 2 ^ 12 + f4 * 2 ^ 8)

/-- The word of a command of formats RI and RS (R90). -/
def wordI (op f1 imm : Nat) : Word := BitVec.ofNat 32 (op * 2 ^ 24 + f1 * 2 ^ 20 + imm)

/-- The word of a command of format RK (R90). -/
def wordK (op f1 bank idx : Nat) : Word :=
  BitVec.ofNat 32 (op * 2 ^ 24 + f1 * 2 ^ 20 + bank * 2 ^ 8 + idx)

/-- The opcode of a command (R83). -/
def Instr.opcode : Instr → Nat
  | .mov _ _ => 0x01
  | .ldi _ _ => 0x02
  | .load _ => 0x03
  | .store _ => 0x04
  | .kld _ _ _ => 0x05
  | .kst _ _ _ => 0x06
  | .ldblk => 0x07
  | .stblk => 0x08
  | .add _ _ => 0x10
  | .sub _ _ => 0x11
  | .shl _ _ => 0x12
  | .shr _ _ => 0x13
  | .cmp _ _ => 0x14
  | .tstz _ => 0x15
  | .reduce _ _ => 0x20
  | .mulmod _ _ _ _ => 0x21
  | .gcd _ _ _ => 0x22
  | .modinv _ _ _ => 0x23
  | .valsi _ => 0x30
  | .derive _ _ => 0x31
  | .encrypt _ => 0x32
  | .decrypt _ _ _ => 0x33
  | .flush => 0x3E
  | .clre => 0x3F

/-- The command word of a command (R90). -/
def encode (i : Instr) : Word :=
  match i with
  | .mov d a => wordR i.opcode d a 0 0
  | .ldi d imm => wordI i.opcode d imm
  | .load d => wordR i.opcode d 0 0 0
  | .store a => wordR i.opcode a 0 0 0
  | .kld d bank idx => wordK i.opcode d bank.code idx
  | .kst a bank idx => wordK i.opcode a bank.code idx
  | .ldblk => wordR i.opcode 0 0 0 0
  | .stblk => wordR i.opcode 0 0 0 0
  | .add a b => wordR i.opcode a b 0 0
  | .sub a b => wordR i.opcode a b 0 0
  | .shl a sh => wordI i.opcode a sh
  | .shr a sh => wordI i.opcode a sh
  | .cmp a b => wordR i.opcode a b 0 0
  | .tstz a => wordR i.opcode a 0 0 0
  | .reduce x n => wordR i.opcode x n 0 0
  | .mulmod d a b n => wordR i.opcode d a b n
  | .gcd d a b => wordR i.opcode d a b 0
  | .modinv d v m => wordR i.opcode d v m 0
  | .valsi d => wordR i.opcode d 0 0 0
  | .derive v m => wordR i.opcode v m 0 0
  | .encrypt d => wordR i.opcode d 0 0 0
  | .decrypt c u m => wordR i.opcode c u m 0
  | .flush => wordR i.opcode 0 0 0 0
  | .clre => wordR i.opcode 0 0 0 0

/-! ## The opcode table (R83, spec/opcode_table.json) -/

/-- The eight formats of R82. -/
inductive Format where
  | z | r1 | r2 | r3 | r4 | ri | rs | rk
deriving DecidableEq, Repr

/-- The must-be-zero mask of a format (R82). -/
def Format.mbz : Format → Word
  | .z => 0x00FFFFFF
  | .r1 => 0x000FFFFF
  | .r2 => 0x0000FFFF
  | .r3 => 0x00000FFF
  | .r4 => 0x000000FF
  | .ri => 0x000F0000
  | .rs => 0x000FFC00
  | .rk => 0x000FFE00

/-- One row of the opcode table. -/
structure OpcodeRow where
  op : Nat
  mnemonic : String
  format : Format
deriving DecidableEq, Repr

/-- A word is the row's command exactly when `c AND mask = match` (R83): mask is 0xFF000000 plus the format's
must-be-zero mask, match is op * 2^24. -/
def OpcodeRow.matchesWord (r : OpcodeRow) (w : Word) : Bool :=
  w &&& (0xFF000000 ||| r.format.mbz) == BitVec.ofNat 32 (r.op * 2 ^ 24)

/-- The 24 rows (R83). -/
def opcodeRows : List OpcodeRow :=
  [⟨0x01, "MOV", .r2⟩, ⟨0x02, "LDI", .ri⟩, ⟨0x03, "LOAD", .r1⟩, ⟨0x04, "STORE", .r1⟩,
   ⟨0x05, "KLD", .rk⟩, ⟨0x06, "KST", .rk⟩, ⟨0x07, "LDBLK", .z⟩, ⟨0x08, "STBLK", .z⟩,
   ⟨0x10, "ADD", .r2⟩, ⟨0x11, "SUB", .r2⟩, ⟨0x12, "SHL", .rs⟩, ⟨0x13, "SHR", .rs⟩,
   ⟨0x14, "CMP", .r2⟩, ⟨0x15, "TSTZ", .r1⟩] ++
  [⟨0x20, "REDUCE", .r2⟩, ⟨0x21, "MULMOD", .r4⟩, ⟨0x22, "GCD", .r3⟩, ⟨0x23, "MODINV", .r3⟩,
   ⟨0x30, "VALSI", .r1⟩, ⟨0x31, "DERIVE", .r2⟩, ⟨0x32, "ENCRYPT", .r1⟩, ⟨0x33, "DECRYPT", .r3⟩,
   ⟨0x3E, "FLUSH", .z⟩, ⟨0x3F, "CLRE", .z⟩]

end Sys2Proof
end

