-- ==== Sys2Proof/Config.lean ====
section
/-! DEFINITION. The parameters the spec leaves OPEN (00_scope.md R6), each an opaque constant, so that
what is proved holds for every admissible value, and the free values of the model. -/

namespace Sys2Proof

/-- How far the capacity of DIN exceeds the least admissible one (R6: any number). -/
opaque Config.dinSpare : Nat

/-- How far the capacity of DOUT exceeds the least admissible one (R6: any number). -/
opaque Config.doutSpare : Nat

/-- Which 32-byte unit of the host's address space holds the window (R6, R50: any). -/
opaque Config.baseUnit : Nat

/-- DIN_DEPTH: OPEN, at least 132 (R6, R41). -/
def Config.dinDepth : Nat := Config.dinSpare + 132

/-- DOUT_DEPTH: OPEN, at least 132 (R6, R42). -/
def Config.doutDepth : Nat := Config.doutSpare + 132

/-- BASE: OPEN, a multiple of 32 (R6, R50, 92_eei_decisions.md OPEN parameters). -/
def Config.base : Nat := 32 * Config.baseUnit

/-- FREE VALUE (DESIGN CHOICE, log 8): what DINCNT reads for a length that 32 bits cannot hold; R36 states
no value there. -/
opaque Config.dinLongCount : Nat → Word

/-- FREE VALUE (DESIGN CHOICE, log 8): what DOUTCNT reads for a length that 32 bits cannot hold; R36 states
no value there. -/
opaque Config.doutLongCount : Nat → Word

end Sys2Proof
end

