-- ==== Sys2Proof/Machine/State.lean ====
section
/-! DEFINITION. The state of the CORE, exactly the tuple of 10_state.md R46, and beside it the model's own bookkeeping
of the host's side; the errors of a command; the outcomes' reasons; the state after reset. -/

namespace Sys2Proof.Machine

/-- The state of the CORE: exactly the tuple of R46. -/
structure CoreState where
  /-- R0 to R15 (R20) -/
  regs : Vector Big 16
  /-- KPRIV[0..255], the private key memory (R37) -/
  kpriv : Vector Big 256
  /-- KPUB[0..255], the public key memory (R38) -/
  kpub : Vector Big 256
  /-- BLK, the block register (R39) -/
  blk : Block
  /-- CF (R25) -/
  cf : Bool
  /-- ZF (R26) -/
  zf : Bool
  /-- CMP (R27) -/
  cmp : BitVec 2
  /-- VF (R28) -/
  vf : Bool
  /-- RC, the result code of the most recent command (R31) -/
  rc : BitVec 8
  /-- ESTICKY (R32) -/
  esticky : Bool
  /-- INOVF (R32) -/
  inovf : Bool
  /-- OUTUNF (R32) -/
  outunf : Bool
  /-- DIN, the input FIFO, oldest byte first (R41) -/
  din : List Byte
  /-- DOUT, the output FIFO, oldest byte first (R42) -/
  dout : List Byte
deriving DecidableEq, Repr

/-- What the host can do to the CORE (R14). An offset counts bytes from BASE, `bytes` is the width of the access. -/
inductive HostAction where
  /-- a read of the host window -/
  | read (offset bytes : Nat)
  /-- a write of the host window; a narrow write carries its data in the low bits of value -/
  | write (offset bytes : Nat) (value : Word)
  /-- the reset input (R250) -/
  | reset
deriving DecidableEq, Repr

/-- The model's own bookkeeping of the host's side (DESIGN CHOICE, log 1 and log 7), kept outside the CORE's state as R24
asks of it. -/
structure HostSide where
  /-- the host's actions not yet served, in the order the host issues them (R70) -/
  pending : List HostAction
  /-- the values the host's reads have returned, in that order -/
  replies : List Word
deriving DecidableEq, Repr

/-- The machine: the CORE and its host's side. -/
structure State where
  core : CoreState
  host : HostSide
deriving DecidableEq, Repr

/-- The errors a command can raise (R221). Raising one is a next state, not a stop (R220, R225). -/
inductive CmdError where
  | illegalCmd
  | shortRead
  | shortWrite
  | zeroModulus
  | noInverse
  | invalidKey
  | badGuard
deriving DecidableEq, Repr

/-- Faults: none. "all failures propagate one level to the caller as a status/result value, never as a crash"
(60_exceptions.md head, R220, R225): no command and no host access stops the CORE. -/
inductive Fault where
deriving DecidableEq, Repr

/-- Refusals. -/
inductive Refusal where
  /-- Raised by exec for a command that has no meaning in the model; no arm of exec raises it. Safe: the model stops. -/
  | notModelled (mnemonic : String)
  /-- Raised by a host access of a width other than 32 bits (R52, U8 "refuse"). Safe: the model stops. -/
  | accessNotWord
  /-- Raised by a 32-bit host access whose offset is no multiple of 4 (R52, U8 "refuse"). Safe: the model stops. -/
  | accessMisaligned
  /-- Raised by an aligned 32-bit host access at an offset beyond the window (U8 "refuse"). Safe: the model stops. -/
  | accessOutsideWindow
deriving DecidableEq, Repr

/-- The reset state of the CORE (R46, R250): every component zero, both FIFOs empty. -/
def CoreState.reset : CoreState where
  regs := Vector.replicate 16 0
  kpriv := Vector.replicate 256 0
  kpub := Vector.replicate 256 0
  blk := 0
  cf := false
  zf := false
  cmp := 0
  vf := false
  rc := 0
  esticky := false
  inovf := false
  outunf := false
  din := []
  dout := []

/-- The machine right after reset: the CORE's reset state, the host having issued nothing (log 1, log 7). -/
def State.reset : State where
  core := CoreState.reset
  host := { pending := [], replies := [] }

end Sys2Proof.Machine
end

