-- ==== Sys2Proof/Machine/Ops.lean ====
section
/-! DEFINITION. The named operations over the CORE's registers, key memory, block register and FIFOs (00_scope.md R9, R10), the
byte images of values (20_memory.md R55 to R57), and how a command ends: completing it or raising an error (R11, R220). -/

namespace Sys2Proof.Machine

/-! ## Registers, key memory, block register (R9) -/

/-- Reading `R[i]`. -/
def CoreState.reg (c : CoreState) (r : Reg) : Big := c.regs[r.val]

/-- `R[d] <- v`. -/
def CoreState.setReg (c : CoreState) (d : Reg) (v : Big) : CoreState := { c with regs := c.regs.set d.val v }

/-- Reading `KPRIV[i]` or `KPUB[i]`. -/
def CoreState.slot (c : CoreState) (bank : Bank) (i : Slot) : Big :=
  match bank with
  | .priv => c.kpriv[i.val]
  | .pub => c.kpub[i.val]

/-- `KPRIV[i] <- v` or `KPUB[i] <- v`. -/
def CoreState.setSlot (c : CoreState) (bank : Bank) (i : Slot) (v : Big) : CoreState :=
  match bank with
  | .priv => { c with kpriv := c.kpriv.set i.val v }
  | .pub => { c with kpub := c.kpub.set i.val v }

/-- `KPRIV[i]` as a number, for the loops over i = 0 .. 255 (45_knapsack.md); 0 at an index that is no slot, which no
loop reaches. -/
def CoreState.privAt (c : CoreState) (i : Nat) : Nat := (c.kpriv[i]?.getD 0).toNat

/-- `KPUB[i]` as a number, for the loops over i = 0 .. 255 (45_knapsack.md); 0 at an index that is no slot, which no
loop reaches. -/
def CoreState.pubAt (c : CoreState) (i : Nat) : Nat := (c.kpub[i]?.getD 0).toNat

/-- A key bank given by the value of each slot. -/
def bankOf (f : Nat → Big) : Vector Big 256 :=
  Vector.mk ((List.range 256).map f).toArray (by simp)

/-- Writing every slot of KPUB (R161). -/
def CoreState.setKpub (c : CoreState) (v : Vector Big 256) : CoreState := { c with kpub := v }

/-- `BLK <- v`. -/
def CoreState.setBlk (c : CoreState) (v : Block) : CoreState := { c with blk := v }

/-! ## Flags and sticky bits -/

/-- `CF <- b` (R25). -/
def CoreState.setCf (c : CoreState) (b : Bool) : CoreState := { c with cf := b }

/-- `ZF <- b` (R26). -/
def CoreState.setZf (c : CoreState) (b : Bool) : CoreState := { c with zf := b }

/-- `CMP <- v` (R27). -/
def CoreState.setCmp (c : CoreState) (v : BitVec 2) : CoreState := { c with cmp := v }

/-- `VF <- b` (R28). -/
def CoreState.setVf (c : CoreState) (b : Bool) : CoreState := { c with vf := b }

/-- `INOVF <- 1` (R58). -/
def CoreState.markInovf (c : CoreState) : CoreState := { c with inovf := true }

/-- `OUTUNF <- 1` (R59). -/
def CoreState.markOutunf (c : CoreState) : CoreState := { c with outunf := true }

/-- `ESTICKY <- 0; INOVF <- 0; OUTUNF <- 0` (R180). -/
def CoreState.clearSticky (c : CoreState) : CoreState :=
  { c with esticky := false, inovf := false, outunf := false }

/-! ## Byte FIFOs (R10, R41, R42) -/

/-- DIN holding exactly these bytes. -/
def CoreState.setDin (c : CoreState) (bs : List Byte) : CoreState := { c with din := bs }

/-- DOUT holding exactly these bytes. -/
def CoreState.setDout (c : CoreState) (bs : List Byte) : CoreState := { c with dout := bs }

/-- `MemRead(DIN, n)`: the first n bytes, oldest first (R10). -/
def CoreState.dinHead (c : CoreState) (n : Nat) : List Byte := c.din.take n

/-- `MemRead(DIN, n)`: DIN without those bytes (R10). -/
def CoreState.dropDin (c : CoreState) (n : Nat) : CoreState := c.setDin (c.din.drop n)

/-- `MemWrite(DOUT, n, b)`: the bytes go to the tail in index order (R10). -/
def CoreState.pushDout (c : CoreState) (bs : List Byte) : CoreState := c.setDout (c.dout ++ bs)

/-- `DOUT_DEPTH - len(DOUT)`: the bytes free in DOUT (R61). -/
def CoreState.doutFree (c : CoreState) : Nat := Config.doutDepth - c.dout.length

/-! ## Byte images (R8, R55, R57) -/

/-- The n bytes `(v div 2^(8k)) mod 2^8`, k = 0 .. n-1 (R55, R57). -/
def leBytes (n v : Nat) : List Byte := (List.range n).map fun k => BitVec.ofNat 8 (v / 2 ^ (8 * k))

/-- The number whose byte k is the list's byte k: the sum of `b[k] * 2^(8k)` (R55, R126). -/
def leValue : List Byte → Nat
  | [] => 0
  | b :: bs => b.toNat + 2 ^ 8 * leValue bs

/-- The record of a BigInt: its 128-byte image and the guard limb's four zero bytes (R55, R56). -/
def recordBytes (v : Big) : List Byte := leBytes 128 v.toNat ++ leBytes 4 0

/-- The magnitude a record holds: its words 0 .. 31 (R55, R122). -/
def recordValue (b : List Byte) : Big := BitVec.ofNat 1024 (leValue (b.take 128))

/-- The 33rd word of a record, the guard limb (R56, R122). -/
def recordGuard (b : List Byte) : Nat := leValue ((b.drop 128).take 4)

/-- The 32 bytes of a block (R57). -/
def blockBytes (v : Block) : List Byte := leBytes 32 v.toNat

/-- The block that 32 bytes hold (R57, R126). -/
def blockValue (b : List Byte) : Block := BitVec.ofNat 256 (leValue b)

/-! ## How a command ends (R11, R220, R221) -/

/-- The result codes (R221). -/
def CmdError.code : CmdError → BitVec 8
  | .illegalCmd => 0x01
  | .shortRead => 0x02
  | .shortWrite => 0x03
  | .zeroModulus => 0x04
  | .noInverse => 0x05
  | .invalidKey => 0x06
  | .badGuard => 0x07

/-- `raise <Name>`: RC gets the code, ESTICKY is set, nothing else changes (R11, R220). -/
def CoreState.raise (c : CoreState) (e : CmdError) : CoreState := { c with rc := e.code, esticky := true }

/-- A command that reaches its end sets `RC <- 0` (R11, R220). -/
def CoreState.complete (c : CoreState) : CoreState := { c with rc := 0 }

/-- The CORE in another state, the host's side as it was: commands act on the CORE only. -/
def State.withCore (s : State) (c : CoreState) : State := { s with core := c }

/-- The one way a command ends: what it computed, completed, or the state before it with the error raised
(R11, R220: every check that can raise comes before every write). -/
def conclude (s : State) (r : Except CmdError CoreState) : Host.Outcome State Fault Refusal :=
  match r with
  | .ok c => .next (s.withCore c.complete)
  | .error e => .next (s.withCore (s.core.raise e))

/-! ## The host's side (log 1, log 7) -/

/-- The host's actions still to be served. -/
def State.setPending (s : State) (l : List HostAction) : State := { s with host := { s.host with pending := l } }

/-- A read of the host returns a value. -/
def State.reply (s : State) (v : Word) : State := { s with host := { s.host with replies := s.host.replies ++ [v] } }

end Sys2Proof.Machine
end

