-- ==== Sys2Proof/Machine/Operands.lean ====
section
/-! DEFINITION. The operand forms (30_encoding.md R84): a register, an immediate, a shift amount, a key slot; and the checked
operands of the commands that take a modulus or a key. Register and slot operands are read by CoreState.reg and
CoreState.slot of Ops. -/

namespace Sys2Proof.Machine

/-- LDI's operand: `zext_1024(imm16)` (R84, R121). -/
def immOperand (imm : Nat) : Big := BitVec.ofNat 1024 imm

/-- A register operand as a number: all arithmetic is on unsigned integers (R7, R100). -/
def CoreState.num (c : CoreState) (r : Reg) : Nat := (c.reg r).toNat

/-- A modulus operand: a register that holds 0 raises ZERO_MODULUS (R140). -/
def CoreState.modulus (c : CoreState) (n : Reg) : Except CmdError Nat :=
  if c.num n = 0 then .error .zeroModulus else .ok (c.num n)

/-- The operands u and m of DECRYPT: INVALID_KEY when either register holds 0 (R163). -/
def CoreState.keyPair (c : CoreState) (u m : Reg) : Except CmdError (Nat × Nat) :=
  if c.num u = 0 ∨ c.num m = 0 then .error .invalidKey else .ok (c.num u, c.num m)

/-- The next n bytes of DIN: SHORT_READ when there are fewer (R61). -/
def CoreState.dinOperand (c : CoreState) (n : Nat) : Except CmdError (List Byte) :=
  if c.din.length < n then .error .shortRead else .ok (c.dinHead n)

/-- Appending bytes to DOUT: SHORT_WRITE when there is too little room, and then none is appended (R61). -/
def CoreState.doutOperand (c : CoreState) (bs : List Byte) : Except CmdError CoreState :=
  if c.doutFree < bs.length then .error .shortWrite else .ok (c.pushDout bs)

end Sys2Proof.Machine
end

