-- ==== Sys2Proof/Machine/DataMovement.lean ====
section
/-! DEFINITION. The data movement commands MOV, LDI, LOAD, STORE, KLD, KST, LDBLK, STBLK (42_data_movement.md R120 to R127). -/

namespace Sys2Proof.Machine

/-- MOV Rd, Ra (R120): `R[d] <- R[a]`. -/
def execMov (d a : Reg) (s : State) : Host.Outcome State Fault Refusal :=
  conclude s (.ok (s.core.setReg d (s.core.reg a)))

/-- LDI Rd, #imm16 (R121): `R[d] <- zext_1024(imm16)`. -/
def execLdi (d : Reg) (imm : Nat) (s : State) : Host.Outcome State Fault Refusal :=
  conclude s (.ok (s.core.setReg d (immOperand imm)))

/-- What LOAD computes (R122): SHORT_READ is tested first, then BAD_GUARD; the bytes leave DIN only when neither
holds. -/
def loadRecord (d : Reg) (c : CoreState) : Except CmdError CoreState :=
  match c.dinOperand 132 with
  | .error e => .error e
  | .ok b => if recordGuard b ≠ 0 then .error .badGuard else .ok ((c.dropDin 132).setReg d (recordValue b))

/-- LOAD Rd (R122). -/
def execLoad (d : Reg) (s : State) : Host.Outcome State Fault Refusal := conclude s (loadRecord d s.core)

/-- STORE Ra (R123). -/
def execStore (a : Reg) (s : State) : Host.Outcome State Fault Refusal :=
  conclude s (s.core.doutOperand (recordBytes (s.core.reg a)))

/-- KLD Rd, bank[idx] (R124): `R[d] <- KPRIV[idx]` or `KPUB[idx]`. -/
def execKld (d : Reg) (bank : Bank) (idx : Slot) (s : State) : Host.Outcome State Fault Refusal :=
  conclude s (.ok (s.core.setReg d (s.core.slot bank idx)))

/-- KST Ra, bank[idx] (R125): `KPRIV[idx] <- R[a]` or `KPUB[idx] <- R[a]`. -/
def execKst (a : Reg) (bank : Bank) (idx : Slot) (s : State) : Host.Outcome State Fault Refusal :=
  conclude s (.ok (s.core.setSlot bank idx (s.core.reg a)))

/-- What LDBLK computes (R126). -/
def loadBlock (c : CoreState) : Except CmdError CoreState :=
  match c.dinOperand 32 with
  | .error e => .error e
  | .ok p => .ok ((c.dropDin 32).setBlk (blockValue p))

/-- LDBLK (R126). -/
def execLdblk (s : State) : Host.Outcome State Fault Refusal := conclude s (loadBlock s.core)

/-- STBLK (R127). -/
def execStblk (s : State) : Host.Outcome State Fault Refusal :=
  conclude s (s.core.doutOperand (blockBytes s.core.blk))

end Sys2Proof.Machine
end

