-- ==== Sys2Proof/Machine/Housekeeping.lean ====
section
/-! DEFINITION. The housekeeping commands FLUSH, CLRE (46_system.md R180, R181). -/

namespace Sys2Proof.Machine

/-- FLUSH (R181): `DIN <- empty; DOUT <- empty`. -/
def execFlush (s : State) : Host.Outcome State Fault Refusal := conclude s (.ok ((s.core.setDin []).setDout []))

/-- CLRE (R180): `ESTICKY <- 0; INOVF <- 0; OUTUNF <- 0` (log 9). -/
def execClre (s : State) : Host.Outcome State Fault Refusal := conclude s (.ok s.core.clearSticky)

end Sys2Proof.Machine
end

