-- ==== Sys2Proof/Machine/Flags.lean ====
section
/-! DEFINITION. The flag computations (10_state.md R25 to R28) and the STATUS word (R30). -/

namespace Sys2Proof.Machine

/-- CF of ADD: the true sum is 2^1024 or more (R25, R102). -/
def carryOut (A B : Nat) : Bool := decide (A + B ≥ 2 ^ 1024)

/-- CF of SUB: A < B (R25, R103). -/
def borrowOut (A B : Nat) : Bool := decide (A < B)

/-- CF of VALSI: the total sum is 2^1024 or more (R25, R160). -/
def totalOverflow (S : Nat) : Bool := decide (S ≥ 2 ^ 1024)

/-- ZF of TSTZ: the register is 0 (R26, R113). -/
def zeroTest (A : Nat) : Bool := decide (A = 0)

/-- CMP: -1, 0 or +1 as a two-bit two's complement number (R27, R112). -/
def compareCode (A B : Nat) : BitVec 2 := if A < B then 0b11 else if A = B then 0b00 else 0b01

/-- STATUS (R30): CF bit 0, ZF bit 1, CMP bits 3:2, VF bit 4, RC bits 15:8, ESTICKY bit 16, INOVF bit 17, OUTUNF
bit 18; bits 7:5 and 31:19 read 0. -/
def statusWord (c : CoreState) : Word :=
  0#13 ++ BitVec.ofBool c.outunf ++ BitVec.ofBool c.inovf ++ BitVec.ofBool c.esticky ++ c.rc ++
    0#3 ++ BitVec.ofBool c.vf ++ c.cmp ++ BitVec.ofBool c.zf ++ BitVec.ofBool c.cf

end Sys2Proof.Machine
end

