-- ==== Sys2Proof/Machine/Knapsack.lean ====
section
/-! DEFINITION. The knapsack units VALSI, DERIVE, ENCRYPT, DECRYPT (45_knapsack.md R160 to R163). Each loop is a recursion
on the number of elements, over the function that reads an element. -/

namespace Sys2Proof.Machine

/-- VALSI's loop over i = 0 .. n-1 (R160): the exact sum S and ok. -/
def valsiLoop (k : Nat → Nat) : Nat → Nat × Bool
  | 0 => (0, true)
  | i + 1 =>
    let p := valsiLoop k i
    (p.1 + k i, p.2 && decide (k i > p.1))

/-- VALSI Rd (R160): VF, the total modulo 2^1024, and CF; the loop runs over all 256 elements whatever it finds. -/
def execValsi (d : Reg) (s : State) : Host.Outcome State Fault Refusal :=
  let p := valsiLoop s.core.privAt 256
  conclude s (.ok (((s.core.setReg d (BitVec.ofNat 1024 p.1)).setCf (totalOverflow p.1)).setVf p.2))

/-- What DERIVE computes (R161): `KPUB[i] <- (KPRIV[i] * V) mod M` for every i. -/
def derivePub (v m : Reg) (c : CoreState) : Except CmdError CoreState :=
  match c.modulus m with
  | .error e => .error e
  | .ok M => .ok (c.setKpub (bankOf fun i => BitVec.ofNat 1024 (c.privAt i * c.num v % M)))

/-- DERIVE Rv, Rm (R161); ZERO_MODULUS when M = 0 (R140). -/
def execDerive (v m : Reg) (s : State) : Host.Outcome State Fault Refusal := conclude s (derivePub v m s.core)

/-- ENCRYPT's loop over i = 0 .. n-1 (R162): acc, kept modulo 2^1024, and wrapped. -/
def encryptLoop (bit : Nat → Bool) (k : Nat → Nat) : Nat → Nat × Bool
  | 0 => (0, false)
  | i + 1 =>
    let p := encryptLoop bit k i
    if bit i then ((p.1 + k i) % 2 ^ 1024, p.2 || decide (p.1 + k i ≥ 2 ^ 1024)) else p

/-- ENCRYPT Rd (R162): the subset sum of KPUB over the set bits of BLK, and CF. -/
def execEncrypt (d : Reg) (s : State) : Host.Outcome State Fault Refusal :=
  let p := encryptLoop s.core.blk.getLsbD s.core.pubAt 256
  conclude s (.ok ((s.core.setReg d (BitVec.ofNat 1024 p.1)).setCf p.2))

/-- DECRYPT's loop over i = n-1 down to 0 (R163): dat and the bits B found so far. -/
def decryptLoop (k : Nat → Nat) : Nat → Nat → Nat → Nat
  | 0, _, B => B
  | i + 1, dat, B => if dat ≥ k i then decryptLoop k i (dat - k i) (B + 2 ^ i) else decryptLoop k i dat B

/-- What DECRYPT computes (R163): INVALID_KEY when u or m is 0, else the greedy subset of (C * U) mod M. -/
def decryptBlk (rc ru rm : Reg) (c : CoreState) : Except CmdError CoreState :=
  match c.keyPair ru rm with
  | .error e => .error e
  | .ok (U, M) => .ok (c.setBlk (BitVec.ofNat 256 (decryptLoop c.privAt 256 (c.num rc * U % M) 0)))

/-- DECRYPT Rc, Ru, Rm (R163). -/
def execDecrypt (c u m : Reg) (s : State) : Host.Outcome State Fault Refusal :=
  conclude s (decryptBlk c u m s.core)

end Sys2Proof.Machine
end

