-- ==== Sys2Proof/Machine/AddSub.lean ====
section
/-! DEFINITION. The adder/subtractor: ADD, SUB (40_add_sub.md R102, R103), and its limb-level form (R101). -/

namespace Sys2Proof.Machine

/-- ADD Ra, Rb (R102): `R[a] <- S mod 2^1024` and CF, for the exact sum S. -/
def execAdd (a b : Reg) (s : State) : Host.Outcome State Fault Refusal :=
  let A := s.core.num a
  let B := s.core.num b
  conclude s (.ok ((s.core.setReg a (BitVec.ofNat 1024 (A + B))).setCf (carryOut A B)))

/-- SUB Ra, Rb (R103): `A - B`, or `A - B + 2^1024` when A < B, and CF. -/
def execSub (a b : Reg) (s : State) : Host.Outcome State Fault Refusal :=
  let A := s.core.num a
  let B := s.core.num b
  let D := if A ≥ B then A - B else A + 2 ^ 1024 - B
  conclude s (.ok ((s.core.setReg a (BitVec.ofNat 1024 D)).setCf (borrowOut A B)))

/-! ## The adder limb by limb (R101) -/

/-- `limb_j(V) = (V div 2^(32 j)) mod 2^32` (R8). -/
def limb (V j : Nat) : Nat := V / 2 ^ (32 * j) % 2 ^ 32

/-- The value of the limbs f 0 .. f (n-1): the sum of `f j * 2^(32 j)` (R22). -/
def limbsValue (f : Nat → Nat) : Nat → Nat
  | 0 => 0
  | n + 1 => limbsValue f n + f n * 2 ^ (32 * n)

/-- The carry `c_j` into limb j (R101). -/
def limbCarry (A B : Nat) : Nat → Nat
  | 0 => 0
  | j + 1 => (limb A j + limb B j + limbCarry A B j) / 2 ^ 32

/-- Limb j of the sum (R101). -/
def limbSum (A B j : Nat) : Nat := (limb A j + limb B j + limbCarry A B j) % 2 ^ 32

/-- The borrow `d_j` into limb j (R101). -/
def limbBorrow (A B : Nat) : Nat → Nat
  | 0 => 0
  | j + 1 => if (limb A j : Int) - limb B j - limbBorrow A B j < 0 then 1 else 0

/-- Limb j of the difference (R101). -/
def limbDiff (A B j : Nat) : Nat := (((limb A j : Int) - limb B j - limbBorrow A B j) % 2 ^ 32).toNat

end Sys2Proof.Machine
end

