-- ==== Sys2Proof/Machine/Modular.lean ====
section
/-! DEFINITION. The modular units REDUCE, MULMOD, GCD (43_modular.md R141 to R143), the shift-subtract remainder they are
built from (R144) and the digit-serial product (R142). -/

namespace Sys2Proof.Machine

/-- What REDUCE computes (R141). -/
def reduceReg (x n : Reg) (c : CoreState) : Except CmdError CoreState :=
  match c.modulus n with
  | .error e => .error e
  | .ok N => .ok (c.setReg x (BitVec.ofNat 1024 (c.num x % N)))

/-- REDUCE Rx, Rn (R141): `R[x] <- X mod N`; ZERO_MODULUS when N = 0 (R140). -/
def execReduce (x n : Reg) (s : State) : Host.Outcome State Fault Refusal := conclude s (reduceReg x n s.core)

/-- What MULMOD computes (R142). -/
def mulmodReg (d a b n : Reg) (c : CoreState) : Except CmdError CoreState :=
  match c.modulus n with
  | .error e => .error e
  | .ok N => .ok (c.setReg d (BitVec.ofNat 1024 (c.num a * c.num b % N)))

/-- MULMOD Rd, Ra, Rb, Rn (R142): `R[d] <- (A * B) mod N`, the product exact; ZERO_MODULUS when N = 0 (R140). -/
def execMulmod (d a b n : Reg) (s : State) : Host.Outcome State Fault Refusal :=
  conclude s (mulmodReg d a b n s.core)

/-- Euclid's loop of R143, for at most `fuel` passes; the result is A + B, one of them being 0 when the loop
ends. -/
def gcdLoop : Nat → Nat → Nat → Nat
  | 0, A, B => A + B
  | fuel + 1, A, B =>
    if A ≠ 0 ∧ B ≠ 0 then
      if A ≥ B then gcdLoop fuel (A % B) B else gcdLoop fuel A (B % A)
    else A + B

/-- The gcd of R143: "the loop makes at most 2048 passes". -/
def gcdValue (A B : Nat) : Nat := gcdLoop 2048 A B

/-- GCD Rd, Ra, Rb (R143): never ZERO_MODULUS; a zero operand gives the other one. -/
def execGcd (d a b : Reg) (s : State) : Host.Outcome State Fault Refusal :=
  conclude s (.ok (s.core.setReg d (BitVec.ofNat 1024 (gcdValue (s.core.num a) (s.core.num b)))))

/-! ## The algorithms the source describes (R142, R144) -/

/-- The first loop of R144: `while T < X: T <- 2 * T`, for at most `fuel` passes. -/
def shiftUp : Nat → Nat → Nat → Nat
  | 0, T, _ => T
  | fuel + 1, T, X => if T < X then shiftUp fuel (2 * T) X else T

/-- The second loop of R144: `while X >= N: if T <= X then X <- X - T else T <- T div 2`, for at most `fuel`
passes. -/
def subtractDown : Nat → Nat → Nat → Nat → Nat
  | 0, X, _, _ => X
  | fuel + 1, X, T, N =>
    if X ≥ N then
      if T ≤ X then subtractDown fuel (X - T) T N else subtractDown fuel X (T / 2) N
    else X

/-- The shift-subtract remainder primitive (R144). A 1024-bit X takes at most 1024 doublings, as many halvings,
and one subtraction after each of them and before the first. -/
def shiftSubtractRemainder (X N : Nat) : Nat := subtractDown 2049 X (shiftUp 1024 N X) N

/-- One pass of R142's digit-serial procedure: `T <- (T * 2^32 + A * b) mod N`. -/
def digitPass (A N T b : Nat) : Nat := (T * 2 ^ 32 + A * b) % N

/-- The running total T of R142's digit-serial procedure, `for j = 31 down to 0`, after its first n passes: pass n
takes limb 31 - n of B. -/
def mulmodDigits (A B N : Nat) : Nat → Nat
  | 0 => 0
  | n + 1 => digitPass A N (mulmodDigits A B N n) (limb B (31 - n))

end Sys2Proof.Machine
end

