-- ==== Sys2Proof/Machine/ModInv.lean ====
section
/-! DEFINITION. The modular inverse engine: MODINV (44_modinv.md R150), by the algorithm of R152 (log 10). -/

namespace Sys2Proof.Machine

/-- The loop of R152, for at most `fuel` passes, answering (r0, t0). -/
def inverseLoop (M : Nat) : Nat → Nat → Nat → Nat → Nat → Nat × Nat
  | 0, r0, _, t0, _ => (r0, t0)
  | fuel + 1, r0, r1, t0, t1 =>
    if r1 = 0 then (r0, t0)
    else
      let q := r0 / r1
      inverseLoop M fuel r1 (r0 - q * r1) t1 (((t0 : Int) - q * t1) % M).toNat

/-- The inverse of V modulo M in [0, M), for gcd(V, M) = 1 and M > 0 (R150, R152); 2048 passes are enough for
1024-bit operands. -/
def inverseValue (V M : Nat) : Nat := (inverseLoop M 2048 M (V % M) 0 1).2 % M

/-- What MODINV computes (R150): ZERO_MODULUS is tested first, then NO_INVERSE. -/
def modinvReg (d v m : Reg) (c : CoreState) : Except CmdError CoreState :=
  match c.modulus m with
  | .error e => .error e
  | .ok M =>
    if gcdValue (c.num v) M ≠ 1 then .error .noInverse
    else .ok (c.setReg d (BitVec.ofNat 1024 (inverseValue (c.num v) M)))

/-- MODINV Rd, Rv, Rm (R150). -/
def execModinv (d v m : Reg) (s : State) : Host.Outcome State Fault Refusal := conclude s (modinvReg d v m s.core)

end Sys2Proof.Machine
end

