-- ==== Sys2Proof/Machine/ShiftCompareZero.lean ====
section
/-! DEFINITION. The shift, compare and zero-test units: SHL, SHR, CMP, TSTZ (41_shift_compare_zero.md R110 to R113), and the
limb-level form of the shifts (R114). -/

namespace Sys2Proof.Machine

/-- SHL Ra, #sh (R110): `R[a] <- (A * 2^sh) mod 2^1024`; no flag. -/
def execShl (a : Reg) (sh : Nat) (s : State) : Host.Outcome State Fault Refusal :=
  conclude s (.ok (s.core.setReg a (BitVec.ofNat 1024 (s.core.num a * 2 ^ sh))))

/-- SHR Ra, #sh (R111): `R[a] <- A div 2^sh`; no flag. -/
def execShr (a : Reg) (sh : Nat) (s : State) : Host.Outcome State Fault Refusal :=
  conclude s (.ok (s.core.setReg a (BitVec.ofNat 1024 (s.core.num a / 2 ^ sh))))

/-- CMP Ra, Rb (R112): unsigned compare into the CMP field; no register is written. -/
def execCmp (a b : Reg) (s : State) : Host.Outcome State Fault Refusal :=
  conclude s (.ok (s.core.setCmp (compareCode (s.core.num a) (s.core.num b))))

/-- TSTZ Ra (R113): zero test into ZF; no register is written. -/
def execTstz (a : Reg) (s : State) : Host.Outcome State Fault Refusal :=
  conclude s (.ok (s.core.setZf (zeroTest (s.core.num a))))

/-! ## The shifts limb by limb (R114) -/

/-- `a_j`: limb j of a register, and 0 for j outside 0..31 (R114). -/
def limbOrZero (A : Nat) (j : Int) : Nat := if 0 ≤ j ∧ j ≤ 31 then limb A j.toNat else 0

/-- Result limb j of SHL (R114), with q = sh div 32 and r = sh mod 32. -/
def limbShl (A sh j : Nat) : Nat :=
  let q : Int := sh / 32
  let r := sh % 32
  limbOrZero A (j - q) * 2 ^ r % 2 ^ 32 + limbOrZero A (j - q - 1) / 2 ^ (32 - r)

/-- Result limb j of SHR (R114). -/
def limbShr (A sh j : Nat) : Nat :=
  let q : Int := sh / 32
  let r := sh % 32
  limbOrZero A (j + q) / 2 ^ r + limbOrZero A (j + q + 1) * 2 ^ (32 - r) % 2 ^ 32

/-- Most-significant-limb-first comparison of the n lowest limbs (R112): -1, 0 or 1. -/
def limbCompare (A B : Nat) : Nat → Int
  | 0 => 0
  | n + 1 => if limb A n < limb B n then -1 else if limb A n > limb B n then 1 else limbCompare A B n

end Sys2Proof.Machine
end

