-- ==== Sys2Proof/Machine/Dispatch.lean ====
section
/-! DEFINITION. exec: one arm per command, each one call of its meaning. -/

namespace Sys2Proof.Machine

def exec (i : Instr) (s : State) : Host.Outcome State Fault Refusal :=
  match i with
  -- data movement
  | .mov d a => Sys2Proof.Machine.execMov d a s
  | .ldi d imm => Sys2Proof.Machine.execLdi d imm s
  | .load d => Sys2Proof.Machine.execLoad d s
  | .store a => Sys2Proof.Machine.execStore a s
  | .kld d bank idx => Sys2Proof.Machine.execKld d bank idx s
  | .kst a bank idx => Sys2Proof.Machine.execKst a bank idx s
  | .ldblk => Sys2Proof.Machine.execLdblk s
  | .stblk => Sys2Proof.Machine.execStblk s
  -- adder/subtractor, shift, compare, zero test
  | .add a b => Sys2Proof.Machine.execAdd a b s
  | .sub a b => Sys2Proof.Machine.execSub a b s
  | .shl a sh => Sys2Proof.Machine.execShl a sh s
  | .shr a sh => Sys2Proof.Machine.execShr a sh s
  | .cmp a b => Sys2Proof.Machine.execCmp a b s
  | .tstz a => Sys2Proof.Machine.execTstz a s
  -- modular units
  | .reduce x n => Sys2Proof.Machine.execReduce x n s
  | .mulmod d a b n => Sys2Proof.Machine.execMulmod d a b n s
  | .gcd d a b => Sys2Proof.Machine.execGcd d a b s
  | .modinv d v m => Sys2Proof.Machine.execModinv d v m s
  -- knapsack units
  | .valsi d => Sys2Proof.Machine.execValsi d s
  | .derive v m => Sys2Proof.Machine.execDerive v m s
  | .encrypt d => Sys2Proof.Machine.execEncrypt d s
  | .decrypt c u m => Sys2Proof.Machine.execDecrypt c u m s
  -- housekeeping
  | .flush => Sys2Proof.Machine.execFlush s
  | .clre => Sys2Proof.Machine.execClre s

end Sys2Proof.Machine
end

