-- ==== Sys2Proof/Machine/HostPort.lean ====
section
/-! DEFINITION. The host window (20_memory.md R50 to R63) and reset (70_reset_and_hazards.md R250): how the next of the host's
actions is served, and where a command word comes from. -/

namespace Sys2Proof.Machine

/-- The seven registers and the reserved word of the window (R50). -/
inductive WindowReg where
  | id
  | cmd
  | status
  | din
  | dout
  | dincnt
  | doutcnt
  | reserved
deriving DecidableEq, Repr

/-- The register at an offset: "the CORE decodes only offset bits 4:2" (R50). -/
def windowReg (offset : Nat) : WindowReg :=
  match offset / 4 % 8 with
  | 0 => .id
  | 1 => .cmd
  | 2 => .status
  | 3 => .din
  | 4 => .dout
  | 5 => .dincnt
  | 6 => .doutcnt
  | _ => .reserved

/-- Why an access is no input of the model, if it is none (R52, U8; log 5). -/
def accessRefusal (offset bytes : Nat) : Option Refusal :=
  if bytes ≠ 4 then some .accessNotWord
  else if offset % 4 ≠ 0 then some .accessMisaligned
  else if offset ≥ 32 then some .accessOutsideWindow
  else none

/-- The offset of an address of the host's address space, if the window holds it (R50; log 4). -/
def windowOffset (address : Nat) : Option Nat :=
  if Config.base ≤ address ∧ address < Config.base + 32 then some (address - Config.base) else none

/-- ID (R33): bits 31:16 "KS", bits 15:8 RECORD_WORDS, bits 7:0 the interface revision. -/
def idWord : Word := 0x4B532101

/-- The length of a FIFO, zero-extended to 32 bits (R36); a length 32 bits cannot hold reads as a free value
(DESIGN CHOICE, log 8). -/
def countWord (n : Nat) (long : Nat → Word) : Word := if n < 2 ^ 32 then BitVec.ofNat 32 n else long n

/-- What a read of DOUT does (R59): it pops the head byte, or sets OUTUNF and returns 0. -/
def readDout (c : CoreState) : Word × CoreState :=
  match c.dout with
  | [] => (0, c.markOutunf)
  | b :: bs => (BitVec.ofNat 32 b.toNat, c.setDout bs)

/-- What a 32-bit read returns and leaves (R51, R59, R63): only a read of DOUT changes anything. -/
def portRead (c : CoreState) : WindowReg → Word × CoreState
  | .id => (idWord, c)
  | .cmd => (0, c)
  | .status => (statusWord c, c)
  | .din => (0, c)
  | .dout => readDout c
  | .dincnt => (countWord c.din.length Config.dinLongCount, c)
  | .doutcnt => (countWord c.dout.length Config.doutLongCount, c)
  | .reserved => (0, c)

/-- What a write of DIN does (R58): bits 7:0 are appended, or the byte is lost and INOVF set. -/
def writeDin (c : CoreState) (v : Word) : CoreState :=
  if c.din.length < Config.dinDepth then c.setDin (c.din ++ [BitVec.ofNat 8 (v.toNat % 2 ^ 8)]) else c.markInovf

/-- What the next host action asks of the CORE. -/
inductive Fetched where
  /-- there is none -/
  | idle
  /-- it is served, with this next state -/
  | served (t : State)
  /-- it is a write of a command word to CMD (R34) -/
  | command (w : Word) (t : State)
  /-- it is an access the interface does not have -/
  | rejected (r : Refusal)
deriving DecidableEq, Repr

/-- A 32-bit write (R34, R51, R58): a write to CMD is a command, a write to DIN pushes a byte, every other write
is ignored. -/
def portWrite (s : State) (v : Word) : WindowReg → Fetched
  | .cmd => .command v s
  | .din => .served (s.withCore (writeDin s.core v))
  | .id => .served s
  | .status => .served s
  | .dout => .served s
  | .dincnt => .served s
  | .doutcnt => .served s
  | .reserved => .served s

/-- One action of the host (R14), in the state with that action taken from the queue. -/
def serve (a : HostAction) (s : State) : Fetched :=
  match a with
  | .reset => .served (s.withCore CoreState.reset)
  | .read offset bytes =>
    match accessRefusal offset bytes with
    | some r => .rejected r
    | none =>
      let p := portRead s.core (windowReg offset)
      .served ((s.withCore p.2).reply p.1)
  | .write offset bytes v =>
    match accessRefusal offset bytes with
    | some r => .rejected r
    | none => portWrite s v (windowReg offset)

/-- The next host action, served as far as no command is needed: all actions take effect in one total order, the
order in which the host issues them (R70). -/
def fetch (s : State) : Fetched :=
  match s.host.pending with
  | [] => .idle
  | a :: rest => serve a (s.setPending rest)

/-- The host access that gives the CORE a command word: a 32-bit write to CMD, offset 0x04 (R34, R50). -/
def commandWrite (w : Word) : HostAction := .write 0x04 4 w

end Sys2Proof.Machine
end

