-- ==== Sys2Proof/Machine/Command.lean ====
section
/-! DEFINITION. Running one command word (30_encoding.md R80): a total function of the state and the word (R15). -/

namespace Sys2Proof.Machine

/-- A word that is no command raises ILLEGAL_CMD (R80, R86, R87). -/
def illegalCommand (s : State) : Host.Outcome State Fault Refusal := conclude s (.error .illegalCmd)

/-- The command a word stands for, or ILLEGAL_CMD, found in decoding before any operand is read (R80, R224). -/
def runWord (w : Word) (s : State) : Host.Outcome State Fault Refusal :=
  match decode w with
  | .ok i => exec i s
  | .error _ => illegalCommand s

end Sys2Proof.Machine
end

