-- ==== Sys2Proof/Machine/Step.lean ====
section
/-! DEFINITION. One step: the next host action, served; a write to CMD runs its command to completion (00_scope.md R14, R15). -/

namespace Sys2Proof.Machine

/-- One step. With no action of the host the CORE waits (R14, R252; log 2). -/
def step (s : State) : Host.Outcome State Fault Refusal :=
  match fetch s with
  | .idle => .next s
  | .served t => .next t
  | .rejected r => .refused r
  | .command w t => runWord w t

/-- The state in which the host's next action is a write to CMD of the word that is w's low nbits bits (log 1). -/
def State.withFetchWord (s : State) (nbits w : Nat) : State :=
  s.setPending (commandWrite (BitVec.ofNat 32 (w % 2 ^ nbits)) :: s.host.pending)

end Sys2Proof.Machine
end

