-- ==== Sys2Proof/Safety.lean ====
section
/-! DEFINITION. What counts as a safe run, in the terms the statements use: the legal states of the CORE, what a completed
and a raising command leave unchanged (10_state.md R29, 60_exceptions.md R220), the codes each command may raise
(R221), and the keys for which decryption undoes encryption (45_knapsack.md R164). -/

namespace Sys2Proof.Machine

/-- The legal values of the CORE's state: RC is one of the eight result codes (R31, R221), CMP is never 0b10 (R27), the
FIFOs hold no more than their capacities (R41, R42). -/
structure CoreState.Legal (c : CoreState) : Prop where
  rc_legal : c.rc.toNat ≤ 7
  cmp_legal : c.cmp ≠ 0b10
  din_fits : c.din.length ≤ Config.dinDepth
  dout_fits : c.dout.length ≤ Config.doutDepth

/-- The machine is legal when its CORE is. -/
abbrev State.Legal (s : State) : Prop := s.core.Legal

/-! ## Frames -/

/-- What a command may write; a component not named is not written. -/
structure Writes where
  reg : Reg → Bool := fun _ => false
  slot : Bank → Slot → Bool := fun _ _ => false
  blk : Bool := false
  cf : Bool := false
  zf : Bool := false
  cmp : Bool := false
  vf : Bool := false
  sticky : Bool := false
  din : Bool := false
  dout : Bool := false

/-- The command has completed, RC being 0 (R11), and has written at most these components of the whole state; the
host's side is as it was. -/
structure Completed (w : Writes) (s t : State) : Prop where
  rc : t.core.rc = 0
  reg : ∀ r, w.reg r = false → t.core.reg r = s.core.reg r
  slot : ∀ k i, w.slot k i = false → t.core.slot k i = s.core.slot k i
  blk : w.blk = false → t.core.blk = s.core.blk
  cf : w.cf = false → t.core.cf = s.core.cf
  zf : w.zf = false → t.core.zf = s.core.zf
  cmp : w.cmp = false → t.core.cmp = s.core.cmp
  vf : w.vf = false → t.core.vf = s.core.vf
  esticky : w.sticky = false → t.core.esticky = s.core.esticky
  inovf : w.sticky = false → t.core.inovf = s.core.inovf
  outunf : w.sticky = false → t.core.outunf = s.core.outunf
  din : w.din = false → t.core.din = s.core.din
  dout : w.dout = false → t.core.dout = s.core.dout
  host : t.host = s.host

/-- The state after a command that raised the error with this code: RC and ESTICKY are written, and nothing else
(R11, R220). -/
def State.raised (s : State) (code : BitVec 8) : State :=
  { s with core := { s.core with rc := code, esticky := true } }

/-- The codes other than ILLEGAL_CMD that a command can raise (R221). -/
def errorCodes : Instr → List (BitVec 8)
  | .load _ => [0x02, 0x07]
  | .ldblk => [0x02]
  | .store _ => [0x03]
  | .stblk => [0x03]
  | .reduce _ _ => [0x04]
  | .mulmod _ _ _ _ => [0x04]
  | .modinv _ _ _ => [0x04, 0x05]
  | .derive _ _ => [0x04]
  | .decrypt _ _ _ => [0x06]
  | .mov _ _ => []
  | .ldi _ _ => []
  | .kld _ _ _ => []
  | .kst _ _ _ => []
  | .add _ _ => []
  | .sub _ _ => []
  | .shl _ _ => []
  | .shr _ _ => []
  | .cmp _ _ => []
  | .tstz _ => []
  | .gcd _ _ _ => []
  | .valsi _ => []
  | .encrypt _ => []
  | .clre => []
  | .flush => []

/-! ## Streams and keys -/

/-- Byte k of a byte stream, 0 beyond its end. -/
def byteAt (l : List Byte) (k : Nat) : Nat := (l[k]?.getD 0).toNat

/-- Word j of a byte stream: `b[4j] + b[4j+1]*2^8 + b[4j+2]*2^16 + b[4j+3]*2^24` (R122). -/
def wordAt (l : List Byte) (j : Nat) : Nat :=
  byteAt l (4 * j) + byteAt l (4 * j + 1) * 2 ^ 8 + byteAt l (4 * j + 2) * 2 ^ 16 + byteAt l (4 * j + 3) * 2 ^ 24

/-- "an ordered sequence where each element exceeds the sum of all preceding elements" (00_scope.md glossary, R160), for
the first n elements. -/
def Superincreasing (k : Nat → Nat) (n : Nat) : Prop := ∀ i < n, ∑ j ∈ Finset.range i, k j < k i

end Sys2Proof.Machine
end

