-- ==== Sys2Proof/Certificates/Slice0/Obligations.lean ====
section
/-! DEFINITION. The statements about the model, for the provers. `R<n>` names the rule of spec/ a statement formalises. A
command's statement gives its word (R90), that it decodes to the command, and what running it does from every state: the
next state, the value written, and the frame (Completed: nothing but the named components is written). -/

open Sys2Proof Sys2Proof.Machine

/-! ## Reset and the whole machine -/

/-- R46, R250: every component of the CORE after reset. -/
def Obligations.ResetState : Prop :=
  let c := State.reset.core
  (∀ r, c.reg r = 0) ∧ (∀ k i, c.slot k i = 0) ∧ c.blk = 0 ∧ c.cf = false ∧ c.zf = false ∧ c.cmp = 0 ∧
    c.vf = false ∧ c.rc = 0 ∧ c.esticky = false ∧ c.inovf = false ∧ c.outunf = false ∧ c.din = [] ∧ c.dout = []

/-- The reset state is legal (R27, R31, R41, R42). -/
def Obligations.ResetLegal : Prop := State.reset.Legal

/-- Legality is kept by every step, from every legal state, reached or not (R27, R31, R41, R42). What a step is, one
action of the host from the queue host.pending, is the model's choice (log 1). -/
def Obligations.StepKeepsLegal : Prop := ∀ s t : State, s.Legal → step s = .next t → t.Legal

/-- R34, R80: a host write of a command's word to CMD executes that command; the write is taken from the queue of host
actions, which is the model's choice (log 1), and nothing else stands between step and exec. -/
def Obligations.StepRunsDecodedCommand : Prop :=
  ∀ (s : State) (rest : List HostAction) (w : Word) (i : Instr),
    s.host.pending = .write 0x04 4 w :: rest → decode w = .ok i → i.wellFormed = true →
      step s = exec i { s with host := { s.host with pending := rest } }

/-- The model's choice (log 2): with no action of the host, a step changes nothing. -/
def Obligations.IdleStepWaits : Prop := ∀ s : State, s.host.pending = [] → step s = .next s

/-- R250: reset, from every state, puts every piece of the CORE's state at its reset value; that the host's other
actions and what it has read stay is the model's choice (log 6). -/
def Obligations.ResetActionResets : Prop :=
  ∀ (s : State) (rest : List HostAction), s.host.pending = .reset :: rest →
    ∃ t, step s = .next t ∧ t.host.pending = rest ∧ t.host.replies = s.host.replies ∧
      (∀ r, t.core.reg r = 0) ∧ (∀ k i, t.core.slot k i = 0) ∧ t.core.blk = 0 ∧ t.core.cf = false ∧
      t.core.zf = false ∧ t.core.cmp = 0 ∧ t.core.vf = false ∧ t.core.rc = 0 ∧ t.core.esticky = false ∧
      t.core.inovf = false ∧ t.core.outunf = false ∧ t.core.din = [] ∧ t.core.dout = []

/-! ## Encoding -/

/-- Decoding what the encoder writes gives the command back, for every command and every operand a word can hold. -/
def Obligations.DecodeOfEncode : Prop := ∀ i : Instr, i.wellFormed = true → decode (encode i) = .ok i

/-- A word that decodes has no bit the command does not account for, and the command is well formed. -/
def Obligations.EncodeOfDecode : Prop :=
  ∀ (w : Word) (i : Instr), decode w = .ok i → i.wellFormed = true ∧ encode i = w

/-- R83: a word is a command exactly when it matches a row's mask and match; the row is the command's, and no word
matches two rows. -/
def Obligations.DecodeMatchesOpcodeTable : Prop :=
  ∀ w : Word,
    ((∃ i, decode w = .ok i) ↔ ∃ row ∈ opcodeRows, row.matchesWord w = true) ∧
      (∀ i, decode w = .ok i → ∀ row ∈ opcodeRows, row.matchesWord w = true → row.op = i.opcode) ∧
      ∀ row ∈ opcodeRows, ∀ row' ∈ opcodeRows, row.matchesWord w = true → row'.matchesWord w = true → row = row'

/-- R90's example words decode to the commands they stand for. -/
def Obligations.ExampleWordsDecode : Prop :=
  decode 0x01210000 = .ok (.mov 2 1) ∧ decode 0x02300001 = .ok (.ldi 3 1) ∧ decode 0x03600000 = .ok (.load 6) ∧
    decode 0x05000105 = .ok (.kld 0 .pub 5) ∧ decode 0x067000FF = .ok (.kst 7 .priv 255) ∧
    decode 0x10020000 = .ok (.add 0 2) ∧ decode 0x12000004 = .ok (.shl 0 4) ∧
    decode 0x132003FF = .ok (.shr 2 1023) ∧ decode 0x21652100 = .ok (.mulmod 6 5 2 1) ∧
    decode 0x33531000 = .ok (.decrypt 5 3 1) ∧ decode 0x3F000000 = .ok .clre

/-- R86: every reserved opcode raises ILLEGAL_CMD whatever its other bits are, and nothing else changes; the queue
the word comes from is the model's choice (log 1). -/
def Obligations.ReservedOpcodeRaises : Prop :=
  ∀ (s : State) (rest : List HostAction) (w : Word), s.host.pending = .write 0x04 4 w :: rest →
    (let op := w.toNat / 2 ^ 24
     op = 0x00 ∨ (0x09 ≤ op ∧ op ≤ 0x0F) ∨ (0x16 ≤ op ∧ op ≤ 0x1F) ∨ (0x24 ≤ op ∧ op ≤ 0x2F) ∨
       (0x34 ≤ op ∧ op ≤ 0x3D) ∨ 0x40 ≤ op) →
    step s = .next (State.raised { s with host := { s.host with pending := rest } } 0x01)

/-- R87: a defined opcode with a 1 in a bit its format requires to be zero raises ILLEGAL_CMD in the same way; the
queue the word comes from is the model's choice (log 1). -/
def Obligations.MustBeZeroRaises : Prop :=
  ∀ (s : State) (rest : List HostAction) (w : Word), s.host.pending = .write 0x04 4 w :: rest →
    ∀ row ∈ opcodeRows, w.toNat / 2 ^ 24 = row.op → w &&& row.format.mbz ≠ 0 →
      step s = .next (State.raised { s with host := { s.host with pending := rest } } 0x01)

/-! ## Errors, flags: over all commands -/

/-- R220 (R180 for CLRE, log 9): a command that ends with a nonzero code has written that code and ESTICKY and nothing
else; one that ends with RC = 0 has left ESTICKY as it was, but for CLRE. -/
def Obligations.ErrorChangesNothingElse : Prop :=
  ∀ (i : Instr) (s t : State), exec i s = .next t →
    (t.core.rc ≠ 0 → t = s.raised t.core.rc) ∧ (t.core.rc = 0 → i ≠ .clre → t.core.esticky = s.core.esticky)

/-- R221: which command can raise which code. -/
def Obligations.CommandsRaiseTheirCodesOnly : Prop :=
  ∀ (i : Instr) (s : State), ∃ t, exec i s = .next t ∧ (t.core.rc = 0 ∨ t.core.rc ∈ errorCodes i)

/-- R29: which command writes which flag; a command that ends in an error writes none. -/
def Obligations.FlagsWrittenByTheirCommandsOnly : Prop :=
  ∀ (i : Instr) (s t : State), exec i s = .next t →
    (t.core.cf ≠ s.core.cf →
      (∃ a b, i = .add a b) ∨ (∃ a b, i = .sub a b) ∨ (∃ d, i = .valsi d) ∨ ∃ d, i = .encrypt d) ∧
    (t.core.zf ≠ s.core.zf → ∃ a, i = .tstz a) ∧ (t.core.cmp ≠ s.core.cmp → ∃ a b, i = .cmp a b) ∧
    (t.core.vf ≠ s.core.vf → ∃ d, i = .valsi d) ∧
    (t.core.rc ≠ 0 →
      t.core.cf = s.core.cf ∧ t.core.zf = s.core.zf ∧ t.core.cmp = s.core.cmp ∧ t.core.vf = s.core.vf)

/-- R140: a zero modulus raises ZERO_MODULUS in REDUCE, MULMOD, MODINV and DERIVE; GCD never raises; DECRYPT raises
INVALID_KEY instead. -/
def Obligations.ZeroModulusRaises : Prop :=
  ∀ (s : State) (n : Reg), s.core.num n = 0 → ∀ d a b : Reg,
    exec (.reduce d n) s = .next (s.raised 0x04) ∧ exec (.mulmod d a b n) s = .next (s.raised 0x04) ∧
      exec (.modinv d a n) s = .next (s.raised 0x04) ∧ exec (.derive a n) s = .next (s.raised 0x04) ∧
      exec (.decrypt a b n) s = .next (s.raised 0x06) ∧
      ∃ t, exec (.gcd d a n) s = .next t ∧ t.core.rc = 0

/-! ## Data movement -/

/-- R120 -/
def Obligations.MovResult : Prop :=
  ∀ (d a : Reg) (s : State),
    decode (BitVec.ofNat 32 (0x01000000 + d.val * 2 ^ 20 + a.val * 2 ^ 16)) = .ok (.mov d a) ∧
      ∃ t, exec (.mov d a) s = .next t ∧ Completed { reg := fun r => r == d } s t ∧ t.core.reg d = s.core.reg a

/-- R121 -/
def Obligations.LdiResult : Prop :=
  ∀ (d : Reg) (imm : Nat) (s : State), imm ≤ 65535 →
    decode (BitVec.ofNat 32 (0x02000000 + d.val * 2 ^ 20 + imm)) = .ok (.ldi d imm) ∧
      ∃ t, exec (.ldi d imm) s = .next t ∧ Completed { reg := fun r => r == d } s t ∧ t.core.num d = imm

/-- R122: SHORT_READ, then BAD_GUARD, then the record's value; the excess stays at the head of DIN. -/
def Obligations.LoadResult : Prop :=
  ∀ (d : Reg) (s : State),
    decode (BitVec.ofNat 32 (0x03000000 + d.val * 2 ^ 20)) = .ok (.load d) ∧
      (s.core.din.length < 132 → exec (.load d) s = .next (s.raised 0x02)) ∧
      (132 ≤ s.core.din.length → wordAt s.core.din 32 ≠ 0 → exec (.load d) s = .next (s.raised 0x07)) ∧
      (132 ≤ s.core.din.length → wordAt s.core.din 32 = 0 →
        ∃ t, exec (.load d) s = .next t ∧ Completed { reg := fun r => r == d, din := true } s t ∧
          t.core.num d = ∑ j ∈ Finset.range 32, wordAt s.core.din j * 2 ^ (32 * j) ∧
          t.core.din = s.core.din.drop 132)

/-- R123: SHORT_WRITE, or the record's 132 bytes at the tail of DOUT. -/
def Obligations.StoreResult : Prop :=
  ∀ (a : Reg) (s : State),
    decode (BitVec.ofNat 32 (0x04000000 + a.val * 2 ^ 20)) = .ok (.store a) ∧
      (Config.doutDepth - s.core.dout.length < 132 → exec (.store a) s = .next (s.raised 0x03)) ∧
      (132 ≤ Config.doutDepth - s.core.dout.length →
        ∃ t b, exec (.store a) s = .next t ∧ Completed { dout := true } s t ∧
          t.core.dout = s.core.dout ++ b ∧ b.length = 132 ∧
          (∀ n < 128, byteAt b n = s.core.num a / 2 ^ (8 * n) % 2 ^ 8) ∧ ∀ n, 128 ≤ n → byteAt b n = 0)

/-- R124 -/
def Obligations.KldResult : Prop :=
  ∀ (d : Reg) (k : Bank) (i : Slot) (s : State),
    decode (BitVec.ofNat 32 (0x05000000 + d.val * 2 ^ 20 + (if k = .priv then 0 else 1) * 2 ^ 8 + i.val)) =
        .ok (.kld d k i) ∧
      ∃ t, exec (.kld d k i) s = .next t ∧ Completed { reg := fun r => r == d } s t ∧
        t.core.reg d = if k = .priv then s.core.kpriv[i.val] else s.core.kpub[i.val]

/-- R125: only the one slot changes. -/
def Obligations.KstResult : Prop :=
  ∀ (a : Reg) (k : Bank) (i : Slot) (s : State),
    decode (BitVec.ofNat 32 (0x06000000 + a.val * 2 ^ 20 + (if k = .priv then 0 else 1) * 2 ^ 8 + i.val)) =
        .ok (.kst a k i) ∧
      ∃ t, exec (.kst a k i) s = .next t ∧ Completed { slot := fun k' i' => k' == k && i' == i } s t ∧
        (if k = .priv then t.core.kpriv[i.val] else t.core.kpub[i.val]) = s.core.reg a

/-- R126: SHORT_READ, or 32 bytes of DIN as BLK. -/
def Obligations.LdblkResult : Prop :=
  ∀ s : State,
    decode 0x07000000 = .ok .ldblk ∧
      (s.core.din.length < 32 → exec .ldblk s = .next (s.raised 0x02)) ∧
      (32 ≤ s.core.din.length →
        ∃ t, exec .ldblk s = .next t ∧ Completed { blk := true, din := true } s t ∧
          t.core.blk.toNat = ∑ k ∈ Finset.range 32, byteAt s.core.din k * 2 ^ (8 * k) ∧
          t.core.din = s.core.din.drop 32)

/-- R127: SHORT_WRITE, or the block's 32 bytes at the tail of DOUT. -/
def Obligations.StblkResult : Prop :=
  ∀ s : State,
    decode 0x08000000 = .ok .stblk ∧
      (Config.doutDepth - s.core.dout.length < 32 → exec .stblk s = .next (s.raised 0x03)) ∧
      (32 ≤ Config.doutDepth - s.core.dout.length →
        ∃ t p, exec .stblk s = .next t ∧ Completed { dout := true } s t ∧
          t.core.dout = s.core.dout ++ p ∧ p.length = 32 ∧
          ∀ k < 32, byteAt p k = s.core.blk.toNat / 2 ^ (8 * k) % 2 ^ 8)

/-- R123's property: what STORE appends, written to DIN, makes LOAD return the same value. -/
def Obligations.LoadUndoesStore : Prop :=
  ∀ (a d : Reg) (s t u : State) (b more : List Byte),
    132 ≤ Config.doutDepth - s.core.dout.length → exec (.store a) s = .next t → t.core.dout = s.core.dout ++ b →
      u.core.din = b ++ more →
        ∃ v, exec (.load d) u = .next v ∧ v.core.rc = 0 ∧ v.core.reg d = s.core.reg a ∧ v.core.din = more

/-- R127's property: the 32 bytes STBLK appends after LDBLK are the 32 bytes LDBLK took. -/
def Obligations.StblkUndoesLdblk : Prop :=
  ∀ s t : State, 32 ≤ s.core.din.length → 32 ≤ Config.doutDepth - s.core.dout.length → exec .ldblk s = .next t →
    ∃ u, exec .stblk t = .next u ∧ u.core.dout = s.core.dout ++ s.core.din.take 32

/-- R53: a record consumed as a block gives V mod 2^256 and leaves the record's bytes 32 to 131 at the head. -/
def Obligations.RecordReadAsBlock : Prop :=
  ∀ (s : State) (v : Big) (more : List Byte), s.core.din = recordBytes v ++ more →
    ∃ t, exec .ldblk s = .next t ∧ t.core.blk.toNat = v.toNat % 2 ^ 256 ∧
      t.core.din = (recordBytes v).drop 32 ++ more ∧ ((recordBytes v).drop 32).length = 100

/-! ## Adder/subtractor, shifts, compare, zero test -/

/-- R102 -/
def Obligations.AddResult : Prop :=
  ∀ (a b : Reg) (s : State),
    decode (BitVec.ofNat 32 (0x10000000 + a.val * 2 ^ 20 + b.val * 2 ^ 16)) = .ok (.add a b) ∧
      ∃ t, exec (.add a b) s = .next t ∧ Completed { reg := fun r => r == a, cf := true } s t ∧
        t.core.num a = (s.core.num a + s.core.num b) % 2 ^ 1024 ∧
        (t.core.cf = true ↔ 2 ^ 1024 ≤ s.core.num a + s.core.num b)

/-- R103: the borrowing case wraps modulo 2^1024. -/
def Obligations.SubResult : Prop :=
  ∀ (a b : Reg) (s : State),
    decode (BitVec.ofNat 32 (0x11000000 + a.val * 2 ^ 20 + b.val * 2 ^ 16)) = .ok (.sub a b) ∧
      ∃ t, exec (.sub a b) s = .next t ∧ Completed { reg := fun r => r == a, cf := true } s t ∧
        (t.core.num a : Int) = ((s.core.num a : Int) - s.core.num b) % 2 ^ 1024 ∧
        (t.core.cf = true ↔ s.core.num a < s.core.num b)

/-- R110 -/
def Obligations.ShlResult : Prop :=
  ∀ (a : Reg) (sh : Nat) (s : State), sh ≤ 1023 →
    decode (BitVec.ofNat 32 (0x12000000 + a.val * 2 ^ 20 + sh)) = .ok (.shl a sh) ∧
      ∃ t, exec (.shl a sh) s = .next t ∧ Completed { reg := fun r => r == a } s t ∧
        t.core.num a = s.core.num a * 2 ^ sh % 2 ^ 1024 ∧
        ∀ i < 1024, (t.core.reg a).getLsbD i = if sh ≤ i then (s.core.reg a).getLsbD (i - sh) else false

/-- R111 -/
def Obligations.ShrResult : Prop :=
  ∀ (a : Reg) (sh : Nat) (s : State), sh ≤ 1023 →
    decode (BitVec.ofNat 32 (0x13000000 + a.val * 2 ^ 20 + sh)) = .ok (.shr a sh) ∧
      ∃ t, exec (.shr a sh) s = .next t ∧ Completed { reg := fun r => r == a } s t ∧
        t.core.num a = s.core.num a / 2 ^ sh ∧
        ∀ i < 1024, (t.core.reg a).getLsbD i = if i + sh ≤ 1023 then (s.core.reg a).getLsbD (i + sh) else false

/-- R112 -/
def Obligations.CmpResult : Prop :=
  ∀ (a b : Reg) (s : State),
    decode (BitVec.ofNat 32 (0x14000000 + a.val * 2 ^ 20 + b.val * 2 ^ 16)) = .ok (.cmp a b) ∧
      ∃ t, exec (.cmp a b) s = .next t ∧ Completed { cmp := true } s t ∧
        (t.core.cmp = 0b11 ↔ s.core.num a < s.core.num b) ∧ (t.core.cmp = 0b00 ↔ s.core.num a = s.core.num b) ∧
        (t.core.cmp = 0b01 ↔ s.core.num a > s.core.num b)

/-- R113 -/
def Obligations.TstzResult : Prop :=
  ∀ (a : Reg) (s : State),
    decode (BitVec.ofNat 32 (0x15000000 + a.val * 2 ^ 20)) = .ok (.tstz a) ∧
      ∃ t, exec (.tstz a) s = .next t ∧ Completed { zf := true } s t ∧ (t.core.zf = true ↔ s.core.reg a = 0)

/-- R101, which the spec derives from R102 and R103 (log 12): the limb-wise adder and subtractor give the sum and the
difference modulo 2^1024, with the carry out and the borrow out, and that is what ADD and SUB write. -/
def Obligations.LimbAdderMatches : Prop :=
  ∀ (a b : Reg) (s : State),
    let A := s.core.num a
    let B := s.core.num b
    (limbsValue (limbSum A B) 32 = (A + B) % 2 ^ 1024 ∧ limbCarry A B 32 = (A + B) / 2 ^ 1024 ∧
        ∃ t, exec (.add a b) s = .next t ∧ t.core.num a = limbsValue (limbSum A B) 32 ∧
          (t.core.cf = true ↔ limbCarry A B 32 = 1)) ∧
      ((limbsValue (limbDiff A B) 32 : Int) = ((A : Int) - B) % 2 ^ 1024 ∧ (limbBorrow A B 32 = 1 ↔ A < B) ∧
        ∃ t, exec (.sub a b) s = .next t ∧ t.core.num a = limbsValue (limbDiff A B) 32 ∧
          (t.core.cf = true ↔ limbBorrow A B 32 = 1)) ∧
      ∀ j, limbCarry A B j ≤ 1 ∧ limbBorrow A B j ≤ 1

/-- R114, which the spec derives from R110 and R111 (log 12): the limb-wise shifts give what SHL and SHR write, limb
by limb. -/
def Obligations.LimbShiftsMatch : Prop :=
  ∀ (a : Reg) (sh : Nat) (s : State), sh ≤ 1023 →
    (∃ t, exec (.shl a sh) s = .next t ∧ ∀ j < 32, limb (t.core.num a) j = limbShl (s.core.num a) sh j) ∧
      ∃ t, exec (.shr a sh) s = .next t ∧ ∀ j < 32, limb (t.core.num a) j = limbShr (s.core.num a) sh j

/-- R112: most-significant-limb-first comparison gives what CMP writes, as a two-bit two's complement number (R27). -/
def Obligations.LimbCompareMatches : Prop :=
  ∀ (a b : Reg) (s : State), ∃ t, exec (.cmp a b) s = .next t ∧
    t.core.cmp = BitVec.ofInt 2 (limbCompare (s.core.num a) (s.core.num b) 32)

/-! ## Modular units -/

/-- R141 -/
def Obligations.ReduceResult : Prop :=
  ∀ (x n : Reg) (s : State),
    decode (BitVec.ofNat 32 (0x20000000 + x.val * 2 ^ 20 + n.val * 2 ^ 16)) = .ok (.reduce x n) ∧
      (s.core.num n = 0 → exec (.reduce x n) s = .next (s.raised 0x04)) ∧
      (s.core.num n ≠ 0 →
        ∃ t, exec (.reduce x n) s = .next t ∧ Completed { reg := fun r => r == x } s t ∧
          t.core.num x = s.core.num x % s.core.num n)

/-- R142 -/
def Obligations.MulmodResult : Prop :=
  ∀ (d a b n : Reg) (s : State),
    decode (BitVec.ofNat 32 (0x21000000 + d.val * 2 ^ 20 + a.val * 2 ^ 16 + b.val * 2 ^ 12 + n.val * 2 ^ 8)) =
        .ok (.mulmod d a b n) ∧
      (s.core.num n = 0 → exec (.mulmod d a b n) s = .next (s.raised 0x04)) ∧
      (s.core.num n ≠ 0 →
        ∃ t, exec (.mulmod d a b n) s = .next t ∧ Completed { reg := fun r => r == d } s t ∧
          t.core.num d = s.core.num a * s.core.num b % s.core.num n)

/-- R143: the loop's result is the greatest common divisor; a zero operand gives the other one. -/
def Obligations.GcdResult : Prop :=
  ∀ (d a b : Reg) (s : State),
    decode (BitVec.ofNat 32 (0x22000000 + d.val * 2 ^ 20 + a.val * 2 ^ 16 + b.val * 2 ^ 12)) = .ok (.gcd d a b) ∧
      ∃ t, exec (.gcd d a b) s = .next t ∧ Completed { reg := fun r => r == d } s t ∧
        t.core.num d = Nat.gcd (s.core.num a) (s.core.num b) ∧
        (s.core.num a = 0 → t.core.num d = s.core.num b) ∧ (s.core.num b = 0 → t.core.num d = s.core.num a)

/-- R150: ZERO_MODULUS, then NO_INVERSE, then the unique inverse in [0, M). -/
def Obligations.ModinvResult : Prop :=
  ∀ (d v m : Reg) (s : State),
    let V := s.core.num v
    let M := s.core.num m
    decode (BitVec.ofNat 32 (0x23000000 + d.val * 2 ^ 20 + v.val * 2 ^ 16 + m.val * 2 ^ 12)) = .ok (.modinv d v m) ∧
      (M = 0 → exec (.modinv d v m) s = .next (s.raised 0x04)) ∧
      (M ≠ 0 → Nat.gcd V M ≠ 1 → exec (.modinv d v m) s = .next (s.raised 0x05)) ∧
      (M ≠ 0 → Nat.gcd V M = 1 →
        ∃ t, exec (.modinv d v m) s = .next t ∧ Completed { reg := fun r => r == d } s t ∧
          t.core.num d < M ∧ t.core.num d * V % M = 1 % M ∧ ∀ u < M, u * V % M = 1 % M → u = t.core.num d)

/-- R144: the shift-subtract remainder is the remainder, and is what REDUCE writes; the bound on its passes is the
model's choice (log 11). -/
def Obligations.ShiftSubtractIsRemainder : Prop :=
  (∀ X N : Nat, X < 2 ^ 1024 → 0 < N → shiftSubtractRemainder X N = X % N) ∧
    ∀ (x n : Reg) (s : State), s.core.num n ≠ 0 → ∃ t, exec (.reduce x n) s = .next t ∧
      t.core.num x = shiftSubtractRemainder (s.core.num x) (s.core.num n)

/-- R142: the digit-serial procedure gives what MULMOD writes. -/
def Obligations.DigitSerialProductMatches : Prop :=
  ∀ (d a b n : Reg) (s : State), s.core.num n ≠ 0 → ∃ t, exec (.mulmod d a b n) s = .next t ∧
    t.core.num d = mulmodDigits (s.core.num a) (s.core.num b) (s.core.num n) 32

/-- R153: after a MODINV that completed, MULMOD of the inverse and CMP with 1 give CMP = 0b00 when M >= 2, and 0b11
when M = 1. -/
def Obligations.InverseValidates : Prop :=
  ∀ (d v m e one : Reg) (s t : State),
    d ≠ v → d ≠ m → one ≠ d → one ≠ e → s.core.num one = 1 → exec (.modinv d v m) s = .next t → t.core.rc = 0 →
      ∃ u w, exec (.mulmod e d v m) t = .next u ∧ exec (.cmp e one) u = .next w ∧
        (2 ≤ s.core.num m → u.core.num e = 1 ∧ w.core.cmp = 0b00) ∧
        (s.core.num m = 1 → u.core.num e = 0 ∧ w.core.cmp = 0b11)

/-! ## Knapsack units -/

/-- R160: VF says whether KPRIV is superincreasing, R[d] and CF give the total. -/
def Obligations.ValsiResult : Prop :=
  ∀ (d : Reg) (s : State),
    decode (BitVec.ofNat 32 (0x30000000 + d.val * 2 ^ 20)) = .ok (.valsi d) ∧
      ∃ t, exec (.valsi d) s = .next t ∧ Completed { reg := fun r => r == d, cf := true, vf := true } s t ∧
        (t.core.vf = true ↔ Superincreasing s.core.privAt 256) ∧
        t.core.num d = (∑ i ∈ Finset.range 256, s.core.privAt i) % 2 ^ 1024 ∧
        (t.core.cf = true ↔ 2 ^ 1024 ≤ ∑ i ∈ Finset.range 256, s.core.privAt i)

/-- R161 -/
def Obligations.DeriveResult : Prop :=
  ∀ (v m : Reg) (s : State),
    decode (BitVec.ofNat 32 (0x31000000 + v.val * 2 ^ 20 + m.val * 2 ^ 16)) = .ok (.derive v m) ∧
      (s.core.num m = 0 → exec (.derive v m) s = .next (s.raised 0x04)) ∧
      (s.core.num m ≠ 0 →
        ∃ t, exec (.derive v m) s = .next t ∧ Completed { slot := fun k _ => k == .pub } s t ∧
          ∀ i : Slot, (t.core.slot .pub i).toNat = (s.core.slot .priv i).toNat * s.core.num v % s.core.num m)

/-- R162: the subset sum modulo 2^1024, and CF exactly when the true sum is 2^1024 or more. -/
def Obligations.EncryptResult : Prop :=
  ∀ (d : Reg) (s : State),
    decode (BitVec.ofNat 32 (0x32000000 + d.val * 2 ^ 20)) = .ok (.encrypt d) ∧
      (let sum := ∑ i ∈ Finset.range 256, if s.core.blk.getLsbD i then s.core.pubAt i else 0
       ∃ t, exec (.encrypt d) s = .next t ∧ Completed { reg := fun r => r == d, cf := true } s t ∧
         t.core.num d = sum % 2 ^ 1024 ∧ (t.core.cf = true ↔ 2 ^ 1024 ≤ sum))

/-- R163: INVALID_KEY, or the greedy loop: dat i is what is left when the bits from 255 down to i are decided. -/
def Obligations.DecryptResult : Prop :=
  ∀ (c u m : Reg) (s : State),
    decode (BitVec.ofNat 32 (0x33000000 + c.val * 2 ^ 20 + u.val * 2 ^ 16 + m.val * 2 ^ 12)) = .ok (.decrypt c u m) ∧
      (s.core.num u = 0 ∨ s.core.num m = 0 → exec (.decrypt c u m) s = .next (s.raised 0x06)) ∧
      (s.core.num u ≠ 0 → s.core.num m ≠ 0 →
        ∃ t, ∃ dat : Nat → Nat, exec (.decrypt c u m) s = .next t ∧ Completed { blk := true } s t ∧
          dat 256 = s.core.num c * s.core.num u % s.core.num m ∧
          ∀ i < 256, (t.core.blk.getLsbD i = true ↔ s.core.privAt i ≤ dat (i + 1)) ∧
            dat i = if s.core.privAt i ≤ dat (i + 1) then dat (i + 1) - s.core.privAt i else dat (i + 1))

/-- R164, which the spec derives from R160 to R163: for a key VALSI accepts (state s₁), a modulus m above its sum, an
inverse pair u, v, and the public key DERIVE makes of them (state s₂), ENCRYPT of a block in any state p that holds that
public key, when it did not wrap (state p'), is undone by DECRYPT in any state q that holds the private key, the
ciphertext, u and m, in whatever registers. Nothing is asked of q's BLK: it need not be the block. -/
def Obligations.DecryptUndoesEncrypt : Prop :=
  ∀ (e v m u : Reg) (s s₁ s₂ : State),
    exec (.valsi e) s = .next s₁ → s₁.core.vf = true → s₁.core.cf = false → s₁.core.num e < s₁.core.num m →
      s₁.core.num u * s₁.core.num v % s₁.core.num m = 1 → exec (.derive v m) s₁ = .next s₂ →
        ∀ (d : Reg) (p p' : State), (∀ i, p.core.slot .pub i = s₂.core.slot .pub i) →
          exec (.encrypt d) p = .next p' → p'.core.cf = false →
            ∀ (rc ru rm : Reg) (q : State), (∀ i, q.core.slot .priv i = s₁.core.slot .priv i) →
              q.core.reg rc = p'.core.reg d → q.core.reg ru = s₁.core.reg u → q.core.reg rm = s₁.core.reg m →
                ∃ q', exec (.decrypt rc ru rm) q = .next q' ∧ q'.core.rc = 0 ∧ q'.core.blk = p.core.blk

/-! ## Housekeeping -/

/-- R181 -/
def Obligations.FlushResult : Prop :=
  ∀ s : State, decode 0x3E000000 = .ok .flush ∧
    ∃ t, exec .flush s = .next t ∧ Completed { din := true, dout := true } s t ∧ t.core.din = [] ∧ t.core.dout = []

/-- R180 -/
def Obligations.ClreResult : Prop :=
  ∀ s : State, decode 0x3F000000 = .ok .clre ∧
    ∃ t, exec .clre s = .next t ∧ Completed { sticky := true } s t ∧
      t.core.esticky = false ∧ t.core.inovf = false ∧ t.core.outunf = false

/-! ## The host window

The queue of the host's actions and the list of what its reads returned, which these statements name, are the model's
choice (log 1, log 7). -/

/-- R30: a read of STATUS returns each field in its place and changes nothing; a write of STATUS is ignored
(log 1, log 7). -/
def Obligations.StatusWindow : Prop :=
  (∀ (s : State) (rest : List HostAction), s.host.pending = .read 0x08 4 :: rest →
    ∃ w : Word, step s = .next { core := s.core, host := { pending := rest, replies := s.host.replies ++ [w] } } ∧
      w.getLsbD 0 = s.core.cf ∧ w.getLsbD 1 = s.core.zf ∧ w.extractLsb' 2 2 = s.core.cmp ∧
      w.getLsbD 4 = s.core.vf ∧ w.extractLsb' 5 3 = 0 ∧ w.extractLsb' 8 8 = s.core.rc ∧
      w.getLsbD 16 = s.core.esticky ∧ w.getLsbD 17 = s.core.inovf ∧ w.getLsbD 18 = s.core.outunf ∧
      w.extractLsb' 19 13 = 0) ∧
  (∀ (s : State) (rest : List HostAction) (v : Word), s.host.pending = .write 0x08 4 v :: rest →
    step s = .next { s with host := { s.host with pending := rest } }) ∧
  statusWord State.reset.core = 0

/-- R58: a push to DIN appends bits 7:0, or loses the byte and sets INOVF when DIN is full
(log 1). -/
def Obligations.DinPush : Prop :=
  ∀ (s : State) (rest : List HostAction) (v : Word), s.host.pending = .write 0x0C 4 v :: rest →
    (s.core.din.length < Config.dinDepth →
      step s = .next { core := { s.core with din := s.core.din ++ [v.extractLsb' 0 8] },
                       host := { s.host with pending := rest } }) ∧
    (s.core.din.length = Config.dinDepth →
      step s = .next { core := { s.core with inovf := true }, host := { s.host with pending := rest } })

/-- R59: a read of DOUT pops the head byte, or returns 0 and sets OUTUNF when DOUT is empty
(log 1, log 7). -/
def Obligations.DoutPop : Prop :=
  ∀ (s : State) (rest : List HostAction), s.host.pending = .read 0x10 4 :: rest →
    (∀ b bs, s.core.dout = b :: bs →
      step s = .next { core := { s.core with dout := bs },
                       host := { pending := rest, replies := s.host.replies ++ [b.setWidth 32] } }) ∧
    (s.core.dout = [] →
      step s = .next { core := { s.core with outunf := true },
                       host := { pending := rest, replies := s.host.replies ++ [0] } })

/-- R33, R36: ID reads its constant, DINCNT and DOUTCNT the lengths; none of the reads changes the CORE (log 1,
log 7). -/
def Obligations.IdAndCounts : Prop :=
  ∀ (s : State) (rest : List HostAction) (off : Nat), s.host.pending = .read off 4 :: rest →
    (off = 0x00 → step s = .next { core := s.core, host := { pending := rest, replies := s.host.replies ++ [0x4B532101] } }) ∧
    (off = 0x14 → s.core.din.length < 2 ^ 32 → ∃ w : Word, w.toNat = s.core.din.length ∧
      step s = .next { core := s.core, host := { pending := rest, replies := s.host.replies ++ [w] } }) ∧
    (off = 0x18 → s.core.dout.length < 2 ^ 32 → ∃ w : Word, w.toNat = s.core.dout.length ∧
      step s = .next { core := s.core, host := { pending := rest, replies := s.host.replies ++ [w] } })

/-- R51: a read of a write-only register or of the reserved word returns 0 and has no effect; a write to a read-only
register or to the reserved word is ignored (log 1, log 7). -/
def Obligations.WrongDirectionAccesses : Prop :=
  (∀ (s : State) (rest : List HostAction) (off : Nat), s.host.pending = .read off 4 :: rest →
    off ∈ [0x04, 0x0C, 0x1C] →
      step s = .next { core := s.core, host := { pending := rest, replies := s.host.replies ++ [0] } }) ∧
  ∀ (s : State) (rest : List HostAction) (off : Nat) (v : Word), s.host.pending = .write off 4 v :: rest →
    off ∈ [0x00, 0x08, 0x10, 0x14, 0x18, 0x1C] → step s = .next { s with host := { s.host with pending := rest } }

/-- R52, U8: an access that is not an aligned 32-bit access inside the window is refused, by name (log 5). -/
def Obligations.OtherAccessesRefused : Prop :=
  ∀ (s : State) (rest : List HostAction) (a : HostAction) (off n : Nat),
    (a = .read off n ∨ ∃ v, a = .write off n v) → s.host.pending = a :: rest →
      (n ≠ 4 → step s = .refused .accessNotWord) ∧
      (n = 4 → off % 4 ≠ 0 → step s = .refused .accessMisaligned) ∧
      (n = 4 → off % 4 = 0 → 32 ≤ off → step s = .refused .accessOutsideWindow) ∧
      (n = 4 → off % 4 = 0 → off < 32 → ∃ t, step s = .next t)

/-- R50: the window is the 32 bytes at BASE; address bits 4:2 choose the register, each value the one R50's table
names; a host access at an aligned address of the window reads and writes that register. BASE is a multiple of 32
(92_eei_decisions.md, OPEN parameters). That an action of the host carries the offset from BASE, which windowOffset
gives, is the model's choice (log 4), as are the queue and the list of replies (log 1, log 7). -/
def Obligations.WindowPlacement : Prop :=
  ∀ address : Nat,
    (Config.base ≤ address → address < Config.base + 32 →
      ∃ off, windowOffset address = some off ∧ address = Config.base + off ∧
        (address / 4 % 8 = 0 → windowReg off = .id) ∧ (address / 4 % 8 = 1 → windowReg off = .cmd) ∧
        (address / 4 % 8 = 2 → windowReg off = .status) ∧ (address / 4 % 8 = 3 → windowReg off = .din) ∧
        (address / 4 % 8 = 4 → windowReg off = .dout) ∧ (address / 4 % 8 = 5 → windowReg off = .dincnt) ∧
        (address / 4 % 8 = 6 → windowReg off = .doutcnt) ∧ (address / 4 % 8 = 7 → windowReg off = .reserved) ∧
        (address % 4 = 0 → ∀ (s : State) (rest : List HostAction), s.host.pending = .read off 4 :: rest →
          let p := portRead s.core (windowReg off)
          step s = .next { core := p.2, host := { pending := rest, replies := s.host.replies ++ [p.1] } }) ∧
        (address % 4 = 0 → ∀ (s : State) (rest : List HostAction) (w : Word),
          s.host.pending = .write off 4 w :: rest →
            let t : State := { s with host := { s.host with pending := rest } }
            step s = if windowReg off = .cmd then runWord w t
              else if windowReg off = .din then .next { t with core := writeDin s.core w } else .next t)) ∧
    (address < Config.base ∨ Config.base + 32 ≤ address → windowOffset address = none)
end

