-- ==== Sys2Proof/Laws/Decode.lean ====
section
/-! SUPPORT. The bit fields of command words, as numbers; what `ifZero` and the encoder's word builders give. -/

namespace Sys2Proof

/-- The bits of an R-format word's number, when every field fits. -/
theorem wordR_toNat {op f1 f2 f3 f4 : Nat} (ho : op < 256) (h1 : f1 < 16) (h2 : f2 < 16) (h3 : f3 < 16) (h4 : f4 < 16) :
    (wordR op f1 f2 f3 f4).toNat = op * 2 ^ 24 + f1 * 2 ^ 20 + f2 * 2 ^ 16 + f3 * 2 ^ 12 + f4 * 2 ^ 8 := by
  simp only [wordR, BitVec.toNat_ofNat]; omega

/-- The same for formats RI and RS. -/
theorem wordI_toNat {op f1 imm : Nat} (ho : op < 256) (h1 : f1 < 16) (hi : imm < 2 ^ 16) :
    (wordI op f1 imm).toNat = op * 2 ^ 24 + f1 * 2 ^ 20 + imm := by
  simp only [wordI, BitVec.toNat_ofNat]; omega

/-- The same for format RK. -/
theorem wordK_toNat {op f1 bank idx : Nat} (ho : op < 256) (h1 : f1 < 16) (hb : bank < 2) (hi : idx < 256) :
    (wordK op f1 bank idx).toNat = op * 2 ^ 24 + f1 * 2 ^ 20 + bank * 2 ^ 8 + idx := by
  simp only [wordK, BitVec.toNat_ofNat]; omega

theorem Bank.code_lt (k : Bank) : k.code < 2 := by cases k <;> decide

theorem Instr.opcode_lt (i : Instr) : i.opcode < 256 := by cases i <;> simp [Instr.opcode]

/-- Everything `ifZero` can do. -/
theorem ifZero_cases (w : Word) (hi lo : Nat) (i : Instr) :
    (bits w hi lo = 0 ∧ ifZero w hi lo i = .ok i) ∨ (bits w hi lo ≠ 0 ∧ ifZero w hi lo i = .error .mustBeZero) := by
  by_cases h : bits w hi lo = 0
  · exact .inl ⟨h, by simp [ifZero, h]⟩
  · exact .inr ⟨h, by simp [ifZero, h]⟩

theorem ifZero_ok {w : Word} {hi lo : Nat} {i j : Instr} : ifZero w hi lo i = .ok j ↔ bits w hi lo = 0 ∧ i = j := by
  rcases ifZero_cases w hi lo i with ⟨h, e⟩ | ⟨h, e⟩ <;> simp [h, e]

/-- The register a number of four bits names. -/
theorem fin_ofNat_eq {n k : Nat} [NeZero n] {r : Fin n} (h : k % n = r.val) : Fin.ofNat n k = r := Fin.ext h

/-- Every field, and every range a format requires to be zero, of an R-format word. -/
theorem wordR_bits {op f1 f2 f3 f4 : Nat} (ho : op < 256) (h1 : f1 < 16) (h2 : f2 < 16) (h3 : f3 < 16) (h4 : f4 < 16) :
    let w := wordR op f1 f2 f3 f4
    opField w = op ∧ bits w 23 20 = f1 ∧ bits w 19 16 = f2 ∧ bits w 15 12 = f3 ∧ bits w 11 8 = f4 ∧ bits w 7 0 = 0 ∧
      bits w 11 0 = f4 * 2 ^ 8 ∧ bits w 15 0 = f3 * 2 ^ 12 + f4 * 2 ^ 8 ∧
      bits w 19 0 = f2 * 2 ^ 16 + f3 * 2 ^ 12 + f4 * 2 ^ 8 ∧
      bits w 23 0 = f1 * 2 ^ 20 + f2 * 2 ^ 16 + f3 * 2 ^ 12 + f4 * 2 ^ 8 := by
  simp only [opField, bits, wordR_toNat ho h1 h2 h3 h4]
  refine ⟨?_, ?_, ?_, ?_, ?_, ?_, ?_, ?_, ?_, ?_⟩ <;> omega

/-- Every field, and the range that must be zero, of a word of format RI. -/
theorem wordI_bits {op f1 imm : Nat} (ho : op < 256) (h1 : f1 < 16) (hi : imm < 2 ^ 16) :
    let w := wordI op f1 imm
    opField w = op ∧ bits w 23 20 = f1 ∧ immField w = imm ∧ bits w 19 16 = 0 := by
  simp only [opField, immField, bits, wordI_toNat ho h1 hi]
  refine ⟨?_, ?_, ?_, ?_⟩ <;> omega

/-- Every field, and the range that must be zero, of a word of format RS. -/
theorem wordS_bits {op f1 sh : Nat} (ho : op < 256) (h1 : f1 < 16) (hs : sh < 2 ^ 10) :
    let w := wordI op f1 sh
    opField w = op ∧ bits w 23 20 = f1 ∧ shField w = sh ∧ bits w 19 10 = 0 := by
  simp only [opField, shField, bits, wordI_toNat ho h1 (show sh < 2 ^ 16 by omega)]
  refine ⟨?_, ?_, ?_, ?_⟩ <;> omega

/-- Every field, and the range that must be zero, of a word of format RK. -/
theorem wordK_bits {op f1 bank idx : Nat} (ho : op < 256) (h1 : f1 < 16) (hb : bank < 2) (hi : idx < 256) :
    let w := wordK op f1 bank idx
    opField w = op ∧ bits w 23 20 = f1 ∧ bits w 8 8 = bank ∧ bits w 7 0 = idx ∧ bits w 19 9 = 0 := by
  simp only [opField, bits, wordK_toNat ho h1 hb hi]
  refine ⟨?_, ?_, ?_, ?_, ?_⟩ <;> omega

/-- The bank a bank's code names. -/
theorem bankField_eq {w : Word} {k : Bank} (h : bits w 8 8 = k.code) : bankField w = k := by
  cases k <;> simp [bankField, h, Bank.code]

/-- The register, or slot, that a field's number names. -/
theorem regField_eq {w : Word} {r : Reg} {hi lo : Nat} (h : bits w hi lo = r.val) : Fin.ofNat 16 (bits w hi lo) = r :=
  fin_ofNat_eq (h.symm ▸ Nat.mod_eq_of_lt r.isLt)

end Sys2Proof
end

