-- ==== Sys2Proof/Laws/State.lean ====
section
/-! SUPPORT. What each update of the state leaves in each field: one lemma per field per update, true by rfl. -/

namespace Sys2Proof.Machine

section CoreUpdates

variable (c : CoreState)

/-! ### setReg -/

@[simp] theorem CoreState.setReg_regs (d : Reg) (v : Big) : (c.setReg d v).regs = c.regs.set d.val v := rfl
@[simp] theorem CoreState.setReg_kpriv (d : Reg) (v : Big) : (c.setReg d v).kpriv = c.kpriv := rfl
@[simp] theorem CoreState.setReg_kpub (d : Reg) (v : Big) : (c.setReg d v).kpub = c.kpub := rfl
@[simp] theorem CoreState.setReg_blk (d : Reg) (v : Big) : (c.setReg d v).blk = c.blk := rfl
@[simp] theorem CoreState.setReg_cf (d : Reg) (v : Big) : (c.setReg d v).cf = c.cf := rfl
@[simp] theorem CoreState.setReg_zf (d : Reg) (v : Big) : (c.setReg d v).zf = c.zf := rfl
@[simp] theorem CoreState.setReg_cmp (d : Reg) (v : Big) : (c.setReg d v).cmp = c.cmp := rfl
@[simp] theorem CoreState.setReg_vf (d : Reg) (v : Big) : (c.setReg d v).vf = c.vf := rfl
@[simp] theorem CoreState.setReg_rc (d : Reg) (v : Big) : (c.setReg d v).rc = c.rc := rfl
@[simp] theorem CoreState.setReg_esticky (d : Reg) (v : Big) : (c.setReg d v).esticky = c.esticky := rfl
@[simp] theorem CoreState.setReg_inovf (d : Reg) (v : Big) : (c.setReg d v).inovf = c.inovf := rfl
@[simp] theorem CoreState.setReg_outunf (d : Reg) (v : Big) : (c.setReg d v).outunf = c.outunf := rfl
@[simp] theorem CoreState.setReg_din (d : Reg) (v : Big) : (c.setReg d v).din = c.din := rfl
@[simp] theorem CoreState.setReg_dout (d : Reg) (v : Big) : (c.setReg d v).dout = c.dout := rfl

/-! ### setKpub -/

@[simp] theorem CoreState.setKpub_regs (v : Vector Big 256) : (c.setKpub v).regs = c.regs := rfl
@[simp] theorem CoreState.setKpub_kpriv (v : Vector Big 256) : (c.setKpub v).kpriv = c.kpriv := rfl
@[simp] theorem CoreState.setKpub_kpub (v : Vector Big 256) : (c.setKpub v).kpub = v := rfl
@[simp] theorem CoreState.setKpub_blk (v : Vector Big 256) : (c.setKpub v).blk = c.blk := rfl
@[simp] theorem CoreState.setKpub_cf (v : Vector Big 256) : (c.setKpub v).cf = c.cf := rfl
@[simp] theorem CoreState.setKpub_zf (v : Vector Big 256) : (c.setKpub v).zf = c.zf := rfl
@[simp] theorem CoreState.setKpub_cmp (v : Vector Big 256) : (c.setKpub v).cmp = c.cmp := rfl
@[simp] theorem CoreState.setKpub_vf (v : Vector Big 256) : (c.setKpub v).vf = c.vf := rfl
@[simp] theorem CoreState.setKpub_rc (v : Vector Big 256) : (c.setKpub v).rc = c.rc := rfl
@[simp] theorem CoreState.setKpub_esticky (v : Vector Big 256) : (c.setKpub v).esticky = c.esticky := rfl
@[simp] theorem CoreState.setKpub_inovf (v : Vector Big 256) : (c.setKpub v).inovf = c.inovf := rfl
@[simp] theorem CoreState.setKpub_outunf (v : Vector Big 256) : (c.setKpub v).outunf = c.outunf := rfl
@[simp] theorem CoreState.setKpub_din (v : Vector Big 256) : (c.setKpub v).din = c.din := rfl
@[simp] theorem CoreState.setKpub_dout (v : Vector Big 256) : (c.setKpub v).dout = c.dout := rfl

/-! ### setBlk -/

@[simp] theorem CoreState.setBlk_regs (v : Block) : (c.setBlk v).regs = c.regs := rfl
@[simp] theorem CoreState.setBlk_kpriv (v : Block) : (c.setBlk v).kpriv = c.kpriv := rfl
@[simp] theorem CoreState.setBlk_kpub (v : Block) : (c.setBlk v).kpub = c.kpub := rfl
@[simp] theorem CoreState.setBlk_blk (v : Block) : (c.setBlk v).blk = v := rfl
@[simp] theorem CoreState.setBlk_cf (v : Block) : (c.setBlk v).cf = c.cf := rfl
@[simp] theorem CoreState.setBlk_zf (v : Block) : (c.setBlk v).zf = c.zf := rfl
@[simp] theorem CoreState.setBlk_cmp (v : Block) : (c.setBlk v).cmp = c.cmp := rfl
@[simp] theorem CoreState.setBlk_vf (v : Block) : (c.setBlk v).vf = c.vf := rfl
@[simp] theorem CoreState.setBlk_rc (v : Block) : (c.setBlk v).rc = c.rc := rfl
@[simp] theorem CoreState.setBlk_esticky (v : Block) : (c.setBlk v).esticky = c.esticky := rfl
@[simp] theorem CoreState.setBlk_inovf (v : Block) : (c.setBlk v).inovf = c.inovf := rfl
@[simp] theorem CoreState.setBlk_outunf (v : Block) : (c.setBlk v).outunf = c.outunf := rfl
@[simp] theorem CoreState.setBlk_din (v : Block) : (c.setBlk v).din = c.din := rfl
@[simp] theorem CoreState.setBlk_dout (v : Block) : (c.setBlk v).dout = c.dout := rfl

/-! ### setCf -/

@[simp] theorem CoreState.setCf_regs (b : Bool) : (c.setCf b).regs = c.regs := rfl
@[simp] theorem CoreState.setCf_kpriv (b : Bool) : (c.setCf b).kpriv = c.kpriv := rfl
@[simp] theorem CoreState.setCf_kpub (b : Bool) : (c.setCf b).kpub = c.kpub := rfl
@[simp] theorem CoreState.setCf_blk (b : Bool) : (c.setCf b).blk = c.blk := rfl
@[simp] theorem CoreState.setCf_cf (b : Bool) : (c.setCf b).cf = b := rfl
@[simp] theorem CoreState.setCf_zf (b : Bool) : (c.setCf b).zf = c.zf := rfl
@[simp] theorem CoreState.setCf_cmp (b : Bool) : (c.setCf b).cmp = c.cmp := rfl
@[simp] theorem CoreState.setCf_vf (b : Bool) : (c.setCf b).vf = c.vf := rfl
@[simp] theorem CoreState.setCf_rc (b : Bool) : (c.setCf b).rc = c.rc := rfl
@[simp] theorem CoreState.setCf_esticky (b : Bool) : (c.setCf b).esticky = c.esticky := rfl
@[simp] theorem CoreState.setCf_inovf (b : Bool) : (c.setCf b).inovf = c.inovf := rfl
@[simp] theorem CoreState.setCf_outunf (b : Bool) : (c.setCf b).outunf = c.outunf := rfl
@[simp] theorem CoreState.setCf_din (b : Bool) : (c.setCf b).din = c.din := rfl
@[simp] theorem CoreState.setCf_dout (b : Bool) : (c.setCf b).dout = c.dout := rfl

/-! ### setZf -/

@[simp] theorem CoreState.setZf_regs (b : Bool) : (c.setZf b).regs = c.regs := rfl
@[simp] theorem CoreState.setZf_kpriv (b : Bool) : (c.setZf b).kpriv = c.kpriv := rfl
@[simp] theorem CoreState.setZf_kpub (b : Bool) : (c.setZf b).kpub = c.kpub := rfl
@[simp] theorem CoreState.setZf_blk (b : Bool) : (c.setZf b).blk = c.blk := rfl
@[simp] theorem CoreState.setZf_cf (b : Bool) : (c.setZf b).cf = c.cf := rfl
@[simp] theorem CoreState.setZf_zf (b : Bool) : (c.setZf b).zf = b := rfl
@[simp] theorem CoreState.setZf_cmp (b : Bool) : (c.setZf b).cmp = c.cmp := rfl
@[simp] theorem CoreState.setZf_vf (b : Bool) : (c.setZf b).vf = c.vf := rfl
@[simp] theorem CoreState.setZf_rc (b : Bool) : (c.setZf b).rc = c.rc := rfl
@[simp] theorem CoreState.setZf_esticky (b : Bool) : (c.setZf b).esticky = c.esticky := rfl
@[simp] theorem CoreState.setZf_inovf (b : Bool) : (c.setZf b).inovf = c.inovf := rfl
@[simp] theorem CoreState.setZf_outunf (b : Bool) : (c.setZf b).outunf = c.outunf := rfl
@[simp] theorem CoreState.setZf_din (b : Bool) : (c.setZf b).din = c.din := rfl
@[simp] theorem CoreState.setZf_dout (b : Bool) : (c.setZf b).dout = c.dout := rfl

/-! ### setCmp -/

@[simp] theorem CoreState.setCmp_regs (v : BitVec 2) : (c.setCmp v).regs = c.regs := rfl
@[simp] theorem CoreState.setCmp_kpriv (v : BitVec 2) : (c.setCmp v).kpriv = c.kpriv := rfl
@[simp] theorem CoreState.setCmp_kpub (v : BitVec 2) : (c.setCmp v).kpub = c.kpub := rfl
@[simp] theorem CoreState.setCmp_blk (v : BitVec 2) : (c.setCmp v).blk = c.blk := rfl
@[simp] theorem CoreState.setCmp_cf (v : BitVec 2) : (c.setCmp v).cf = c.cf := rfl
@[simp] theorem CoreState.setCmp_zf (v : BitVec 2) : (c.setCmp v).zf = c.zf := rfl
@[simp] theorem CoreState.setCmp_cmp (v : BitVec 2) : (c.setCmp v).cmp = v := rfl
@[simp] theorem CoreState.setCmp_vf (v : BitVec 2) : (c.setCmp v).vf = c.vf := rfl
@[simp] theorem CoreState.setCmp_rc (v : BitVec 2) : (c.setCmp v).rc = c.rc := rfl
@[simp] theorem CoreState.setCmp_esticky (v : BitVec 2) : (c.setCmp v).esticky = c.esticky := rfl
@[simp] theorem CoreState.setCmp_inovf (v : BitVec 2) : (c.setCmp v).inovf = c.inovf := rfl
@[simp] theorem CoreState.setCmp_outunf (v : BitVec 2) : (c.setCmp v).outunf = c.outunf := rfl
@[simp] theorem CoreState.setCmp_din (v : BitVec 2) : (c.setCmp v).din = c.din := rfl
@[simp] theorem CoreState.setCmp_dout (v : BitVec 2) : (c.setCmp v).dout = c.dout := rfl

/-! ### setVf -/

@[simp] theorem CoreState.setVf_regs (b : Bool) : (c.setVf b).regs = c.regs := rfl
@[simp] theorem CoreState.setVf_kpriv (b : Bool) : (c.setVf b).kpriv = c.kpriv := rfl
@[simp] theorem CoreState.setVf_kpub (b : Bool) : (c.setVf b).kpub = c.kpub := rfl
@[simp] theorem CoreState.setVf_blk (b : Bool) : (c.setVf b).blk = c.blk := rfl
@[simp] theorem CoreState.setVf_cf (b : Bool) : (c.setVf b).cf = c.cf := rfl
@[simp] theorem CoreState.setVf_zf (b : Bool) : (c.setVf b).zf = c.zf := rfl
@[simp] theorem CoreState.setVf_cmp (b : Bool) : (c.setVf b).cmp = c.cmp := rfl
@[simp] theorem CoreState.setVf_vf (b : Bool) : (c.setVf b).vf = b := rfl
@[simp] theorem CoreState.setVf_rc (b : Bool) : (c.setVf b).rc = c.rc := rfl
@[simp] theorem CoreState.setVf_esticky (b : Bool) : (c.setVf b).esticky = c.esticky := rfl
@[simp] theorem CoreState.setVf_inovf (b : Bool) : (c.setVf b).inovf = c.inovf := rfl
@[simp] theorem CoreState.setVf_outunf (b : Bool) : (c.setVf b).outunf = c.outunf := rfl
@[simp] theorem CoreState.setVf_din (b : Bool) : (c.setVf b).din = c.din := rfl
@[simp] theorem CoreState.setVf_dout (b : Bool) : (c.setVf b).dout = c.dout := rfl

/-! ### markInovf -/

@[simp] theorem CoreState.markInovf_regs : (c.markInovf).regs = c.regs := rfl
@[simp] theorem CoreState.markInovf_kpriv : (c.markInovf).kpriv = c.kpriv := rfl
@[simp] theorem CoreState.markInovf_kpub : (c.markInovf).kpub = c.kpub := rfl
@[simp] theorem CoreState.markInovf_blk : (c.markInovf).blk = c.blk := rfl
@[simp] theorem CoreState.markInovf_cf : (c.markInovf).cf = c.cf := rfl
@[simp] theorem CoreState.markInovf_zf : (c.markInovf).zf = c.zf := rfl
@[simp] theorem CoreState.markInovf_cmp : (c.markInovf).cmp = c.cmp := rfl
@[simp] theorem CoreState.markInovf_vf : (c.markInovf).vf = c.vf := rfl
@[simp] theorem CoreState.markInovf_rc : (c.markInovf).rc = c.rc := rfl
@[simp] theorem CoreState.markInovf_esticky : (c.markInovf).esticky = c.esticky := rfl
@[simp] theorem CoreState.markInovf_inovf : (c.markInovf).inovf = true := rfl
@[simp] theorem CoreState.markInovf_outunf : (c.markInovf).outunf = c.outunf := rfl
@[simp] theorem CoreState.markInovf_din : (c.markInovf).din = c.din := rfl
@[simp] theorem CoreState.markInovf_dout : (c.markInovf).dout = c.dout := rfl

/-! ### markOutunf -/

@[simp] theorem CoreState.markOutunf_regs : (c.markOutunf).regs = c.regs := rfl
@[simp] theorem CoreState.markOutunf_kpriv : (c.markOutunf).kpriv = c.kpriv := rfl
@[simp] theorem CoreState.markOutunf_kpub : (c.markOutunf).kpub = c.kpub := rfl
@[simp] theorem CoreState.markOutunf_blk : (c.markOutunf).blk = c.blk := rfl
@[simp] theorem CoreState.markOutunf_cf : (c.markOutunf).cf = c.cf := rfl
@[simp] theorem CoreState.markOutunf_zf : (c.markOutunf).zf = c.zf := rfl
@[simp] theorem CoreState.markOutunf_cmp : (c.markOutunf).cmp = c.cmp := rfl
@[simp] theorem CoreState.markOutunf_vf : (c.markOutunf).vf = c.vf := rfl
@[simp] theorem CoreState.markOutunf_rc : (c.markOutunf).rc = c.rc := rfl
@[simp] theorem CoreState.markOutunf_esticky : (c.markOutunf).esticky = c.esticky := rfl
@[simp] theorem CoreState.markOutunf_inovf : (c.markOutunf).inovf = c.inovf := rfl
@[simp] theorem CoreState.markOutunf_outunf : (c.markOutunf).outunf = true := rfl
@[simp] theorem CoreState.markOutunf_din : (c.markOutunf).din = c.din := rfl
@[simp] theorem CoreState.markOutunf_dout : (c.markOutunf).dout = c.dout := rfl

/-! ### clearSticky -/

@[simp] theorem CoreState.clearSticky_regs : (c.clearSticky).regs = c.regs := rfl
@[simp] theorem CoreState.clearSticky_kpriv : (c.clearSticky).kpriv = c.kpriv := rfl
@[simp] theorem CoreState.clearSticky_kpub : (c.clearSticky).kpub = c.kpub := rfl
@[simp] theorem CoreState.clearSticky_blk : (c.clearSticky).blk = c.blk := rfl
@[simp] theorem CoreState.clearSticky_cf : (c.clearSticky).cf = c.cf := rfl
@[simp] theorem CoreState.clearSticky_zf : (c.clearSticky).zf = c.zf := rfl
@[simp] theorem CoreState.clearSticky_cmp : (c.clearSticky).cmp = c.cmp := rfl
@[simp] theorem CoreState.clearSticky_vf : (c.clearSticky).vf = c.vf := rfl
@[simp] theorem CoreState.clearSticky_rc : (c.clearSticky).rc = c.rc := rfl
@[simp] theorem CoreState.clearSticky_esticky : (c.clearSticky).esticky = false := rfl
@[simp] theorem CoreState.clearSticky_inovf : (c.clearSticky).inovf = false := rfl
@[simp] theorem CoreState.clearSticky_outunf : (c.clearSticky).outunf = false := rfl
@[simp] theorem CoreState.clearSticky_din : (c.clearSticky).din = c.din := rfl
@[simp] theorem CoreState.clearSticky_dout : (c.clearSticky).dout = c.dout := rfl

/-! ### setDin -/

@[simp] theorem CoreState.setDin_regs (l : List Byte) : (c.setDin l).regs = c.regs := rfl
@[simp] theorem CoreState.setDin_kpriv (l : List Byte) : (c.setDin l).kpriv = c.kpriv := rfl
@[simp] theorem CoreState.setDin_kpub (l : List Byte) : (c.setDin l).kpub = c.kpub := rfl
@[simp] theorem CoreState.setDin_blk (l : List Byte) : (c.setDin l).blk = c.blk := rfl
@[simp] theorem CoreState.setDin_cf (l : List Byte) : (c.setDin l).cf = c.cf := rfl
@[simp] theorem CoreState.setDin_zf (l : List Byte) : (c.setDin l).zf = c.zf := rfl
@[simp] theorem CoreState.setDin_cmp (l : List Byte) : (c.setDin l).cmp = c.cmp := rfl
@[simp] theorem CoreState.setDin_vf (l : List Byte) : (c.setDin l).vf = c.vf := rfl
@[simp] theorem CoreState.setDin_rc (l : List Byte) : (c.setDin l).rc = c.rc := rfl
@[simp] theorem CoreState.setDin_esticky (l : List Byte) : (c.setDin l).esticky = c.esticky := rfl
@[simp] theorem CoreState.setDin_inovf (l : List Byte) : (c.setDin l).inovf = c.inovf := rfl
@[simp] theorem CoreState.setDin_outunf (l : List Byte) : (c.setDin l).outunf = c.outunf := rfl
@[simp] theorem CoreState.setDin_din (l : List Byte) : (c.setDin l).din = l := rfl
@[simp] theorem CoreState.setDin_dout (l : List Byte) : (c.setDin l).dout = c.dout := rfl

/-! ### setDout -/

@[simp] theorem CoreState.setDout_regs (l : List Byte) : (c.setDout l).regs = c.regs := rfl
@[simp] theorem CoreState.setDout_kpriv (l : List Byte) : (c.setDout l).kpriv = c.kpriv := rfl
@[simp] theorem CoreState.setDout_kpub (l : List Byte) : (c.setDout l).kpub = c.kpub := rfl
@[simp] theorem CoreState.setDout_blk (l : List Byte) : (c.setDout l).blk = c.blk := rfl
@[simp] theorem CoreState.setDout_cf (l : List Byte) : (c.setDout l).cf = c.cf := rfl
@[simp] theorem CoreState.setDout_zf (l : List Byte) : (c.setDout l).zf = c.zf := rfl
@[simp] theorem CoreState.setDout_cmp (l : List Byte) : (c.setDout l).cmp = c.cmp := rfl
@[simp] theorem CoreState.setDout_vf (l : List Byte) : (c.setDout l).vf = c.vf := rfl
@[simp] theorem CoreState.setDout_rc (l : List Byte) : (c.setDout l).rc = c.rc := rfl
@[simp] theorem CoreState.setDout_esticky (l : List Byte) : (c.setDout l).esticky = c.esticky := rfl
@[simp] theorem CoreState.setDout_inovf (l : List Byte) : (c.setDout l).inovf = c.inovf := rfl
@[simp] theorem CoreState.setDout_outunf (l : List Byte) : (c.setDout l).outunf = c.outunf := rfl
@[simp] theorem CoreState.setDout_din (l : List Byte) : (c.setDout l).din = c.din := rfl
@[simp] theorem CoreState.setDout_dout (l : List Byte) : (c.setDout l).dout = l := rfl

/-! ### dropDin -/

@[simp] theorem CoreState.dropDin_regs (n : Nat) : (c.dropDin n).regs = c.regs := rfl
@[simp] theorem CoreState.dropDin_kpriv (n : Nat) : (c.dropDin n).kpriv = c.kpriv := rfl
@[simp] theorem CoreState.dropDin_kpub (n : Nat) : (c.dropDin n).kpub = c.kpub := rfl
@[simp] theorem CoreState.dropDin_blk (n : Nat) : (c.dropDin n).blk = c.blk := rfl
@[simp] theorem CoreState.dropDin_cf (n : Nat) : (c.dropDin n).cf = c.cf := rfl
@[simp] theorem CoreState.dropDin_zf (n : Nat) : (c.dropDin n).zf = c.zf := rfl
@[simp] theorem CoreState.dropDin_cmp (n : Nat) : (c.dropDin n).cmp = c.cmp := rfl
@[simp] theorem CoreState.dropDin_vf (n : Nat) : (c.dropDin n).vf = c.vf := rfl
@[simp] theorem CoreState.dropDin_rc (n : Nat) : (c.dropDin n).rc = c.rc := rfl
@[simp] theorem CoreState.dropDin_esticky (n : Nat) : (c.dropDin n).esticky = c.esticky := rfl
@[simp] theorem CoreState.dropDin_inovf (n : Nat) : (c.dropDin n).inovf = c.inovf := rfl
@[simp] theorem CoreState.dropDin_outunf (n : Nat) : (c.dropDin n).outunf = c.outunf := rfl
@[simp] theorem CoreState.dropDin_din (n : Nat) : (c.dropDin n).din = c.din.drop n := rfl
@[simp] theorem CoreState.dropDin_dout (n : Nat) : (c.dropDin n).dout = c.dout := rfl

/-! ### pushDout -/

@[simp] theorem CoreState.pushDout_regs (l : List Byte) : (c.pushDout l).regs = c.regs := rfl
@[simp] theorem CoreState.pushDout_kpriv (l : List Byte) : (c.pushDout l).kpriv = c.kpriv := rfl
@[simp] theorem CoreState.pushDout_kpub (l : List Byte) : (c.pushDout l).kpub = c.kpub := rfl
@[simp] theorem CoreState.pushDout_blk (l : List Byte) : (c.pushDout l).blk = c.blk := rfl
@[simp] theorem CoreState.pushDout_cf (l : List Byte) : (c.pushDout l).cf = c.cf := rfl
@[simp] theorem CoreState.pushDout_zf (l : List Byte) : (c.pushDout l).zf = c.zf := rfl
@[simp] theorem CoreState.pushDout_cmp (l : List Byte) : (c.pushDout l).cmp = c.cmp := rfl
@[simp] theorem CoreState.pushDout_vf (l : List Byte) : (c.pushDout l).vf = c.vf := rfl
@[simp] theorem CoreState.pushDout_rc (l : List Byte) : (c.pushDout l).rc = c.rc := rfl
@[simp] theorem CoreState.pushDout_esticky (l : List Byte) : (c.pushDout l).esticky = c.esticky := rfl
@[simp] theorem CoreState.pushDout_inovf (l : List Byte) : (c.pushDout l).inovf = c.inovf := rfl
@[simp] theorem CoreState.pushDout_outunf (l : List Byte) : (c.pushDout l).outunf = c.outunf := rfl
@[simp] theorem CoreState.pushDout_din (l : List Byte) : (c.pushDout l).din = c.din := rfl
@[simp] theorem CoreState.pushDout_dout (l : List Byte) : (c.pushDout l).dout = c.dout ++ l := rfl

/-! ### raise -/

@[simp] theorem CoreState.raise_regs (e : CmdError) : (c.raise e).regs = c.regs := rfl
@[simp] theorem CoreState.raise_kpriv (e : CmdError) : (c.raise e).kpriv = c.kpriv := rfl
@[simp] theorem CoreState.raise_kpub (e : CmdError) : (c.raise e).kpub = c.kpub := rfl
@[simp] theorem CoreState.raise_blk (e : CmdError) : (c.raise e).blk = c.blk := rfl
@[simp] theorem CoreState.raise_cf (e : CmdError) : (c.raise e).cf = c.cf := rfl
@[simp] theorem CoreState.raise_zf (e : CmdError) : (c.raise e).zf = c.zf := rfl
@[simp] theorem CoreState.raise_cmp (e : CmdError) : (c.raise e).cmp = c.cmp := rfl
@[simp] theorem CoreState.raise_vf (e : CmdError) : (c.raise e).vf = c.vf := rfl
@[simp] theorem CoreState.raise_rc (e : CmdError) : (c.raise e).rc = e.code := rfl
@[simp] theorem CoreState.raise_esticky (e : CmdError) : (c.raise e).esticky = true := rfl
@[simp] theorem CoreState.raise_inovf (e : CmdError) : (c.raise e).inovf = c.inovf := rfl
@[simp] theorem CoreState.raise_outunf (e : CmdError) : (c.raise e).outunf = c.outunf := rfl
@[simp] theorem CoreState.raise_din (e : CmdError) : (c.raise e).din = c.din := rfl
@[simp] theorem CoreState.raise_dout (e : CmdError) : (c.raise e).dout = c.dout := rfl

/-! ### complete -/

@[simp] theorem CoreState.complete_regs : (c.complete).regs = c.regs := rfl
@[simp] theorem CoreState.complete_kpriv : (c.complete).kpriv = c.kpriv := rfl
@[simp] theorem CoreState.complete_kpub : (c.complete).kpub = c.kpub := rfl
@[simp] theorem CoreState.complete_blk : (c.complete).blk = c.blk := rfl
@[simp] theorem CoreState.complete_cf : (c.complete).cf = c.cf := rfl
@[simp] theorem CoreState.complete_zf : (c.complete).zf = c.zf := rfl
@[simp] theorem CoreState.complete_cmp : (c.complete).cmp = c.cmp := rfl
@[simp] theorem CoreState.complete_vf : (c.complete).vf = c.vf := rfl
@[simp] theorem CoreState.complete_rc : (c.complete).rc = 0 := rfl
@[simp] theorem CoreState.complete_esticky : (c.complete).esticky = c.esticky := rfl
@[simp] theorem CoreState.complete_inovf : (c.complete).inovf = c.inovf := rfl
@[simp] theorem CoreState.complete_outunf : (c.complete).outunf = c.outunf := rfl
@[simp] theorem CoreState.complete_din : (c.complete).din = c.din := rfl
@[simp] theorem CoreState.complete_dout : (c.complete).dout = c.dout := rfl

/-! ### setSlot -/

@[simp] theorem CoreState.setSlot_regs (k : Bank) (i : Slot) (v : Big) : (c.setSlot k i v).regs = c.regs := by cases k <;> rfl
@[simp] theorem CoreState.setSlot_blk (k : Bank) (i : Slot) (v : Big) : (c.setSlot k i v).blk = c.blk := by cases k <;> rfl
@[simp] theorem CoreState.setSlot_cf (k : Bank) (i : Slot) (v : Big) : (c.setSlot k i v).cf = c.cf := by cases k <;> rfl
@[simp] theorem CoreState.setSlot_zf (k : Bank) (i : Slot) (v : Big) : (c.setSlot k i v).zf = c.zf := by cases k <;> rfl
@[simp] theorem CoreState.setSlot_cmp (k : Bank) (i : Slot) (v : Big) : (c.setSlot k i v).cmp = c.cmp := by cases k <;> rfl
@[simp] theorem CoreState.setSlot_vf (k : Bank) (i : Slot) (v : Big) : (c.setSlot k i v).vf = c.vf := by cases k <;> rfl
@[simp] theorem CoreState.setSlot_rc (k : Bank) (i : Slot) (v : Big) : (c.setSlot k i v).rc = c.rc := by cases k <;> rfl
@[simp] theorem CoreState.setSlot_esticky (k : Bank) (i : Slot) (v : Big) : (c.setSlot k i v).esticky = c.esticky := by cases k <;> rfl
@[simp] theorem CoreState.setSlot_inovf (k : Bank) (i : Slot) (v : Big) : (c.setSlot k i v).inovf = c.inovf := by cases k <;> rfl
@[simp] theorem CoreState.setSlot_outunf (k : Bank) (i : Slot) (v : Big) : (c.setSlot k i v).outunf = c.outunf := by cases k <;> rfl
@[simp] theorem CoreState.setSlot_din (k : Bank) (i : Slot) (v : Big) : (c.setSlot k i v).din = c.din := by cases k <;> rfl
@[simp] theorem CoreState.setSlot_dout (k : Bank) (i : Slot) (v : Big) : (c.setSlot k i v).dout = c.dout := by cases k <;> rfl
@[simp] theorem CoreState.setSlot_priv_kpriv (i : Slot) (v : Big) :
    (c.setSlot .priv i v).kpriv = c.kpriv.set i.val v := rfl
@[simp] theorem CoreState.setSlot_priv_kpub (i : Slot) (v : Big) : (c.setSlot .priv i v).kpub = c.kpub := rfl
@[simp] theorem CoreState.setSlot_pub_kpriv (i : Slot) (v : Big) : (c.setSlot .pub i v).kpriv = c.kpriv := rfl
@[simp] theorem CoreState.setSlot_pub_kpub (i : Slot) (v : Big) :
    (c.setSlot .pub i v).kpub = c.kpub.set i.val v := rfl

end CoreUpdates

section StateUpdates

variable (s : State)

@[simp] theorem State.withCore_core (c : CoreState) : (s.withCore c).core = c := rfl
@[simp] theorem State.withCore_host (c : CoreState) : (s.withCore c).host = s.host := rfl
@[simp] theorem State.setPending_core (l : List HostAction) : (s.setPending l).core = s.core := rfl
@[simp] theorem State.setPending_pending (l : List HostAction) : (s.setPending l).host.pending = l := rfl
@[simp] theorem State.setPending_replies (l : List HostAction) :
    (s.setPending l).host.replies = s.host.replies := rfl
@[simp] theorem State.reply_core (v : Word) : (s.reply v).core = s.core := rfl
@[simp] theorem State.reply_pending (v : Word) : (s.reply v).host.pending = s.host.pending := rfl
@[simp] theorem State.reply_replies (v : Word) : (s.reply v).host.replies = s.host.replies ++ [v] := rfl
@[simp] theorem State.withCore_withCore (c d : CoreState) : (s.withCore c).withCore d = s.withCore d := rfl
@[simp] theorem State.withCore_self : s.withCore s.core = s := rfl

end StateUpdates

end Sys2Proof.Machine
end

