-- ==== Sys2Proof/Laws/Ops.lean ====
section
/-! SUPPORT. What each shared operation does, said once: reads after writes, byte images, the checked operands, and how a
command ends. -/

namespace Sys2Proof.Machine

section Registers

variable (c : CoreState)

@[simp] theorem CoreState.reg_setReg_self (d : Reg) (v : Big) : (c.setReg d v).reg d = v := by
  simp [CoreState.reg]

@[simp] theorem CoreState.reg_setReg_of_ne {d r : Reg} (h : r ≠ d) (v : Big) : (c.setReg d v).reg r = c.reg r := by
  have : d.val ≠ r.val := fun e => h (Fin.ext e.symm)
  simp [CoreState.reg, Vector.getElem_set_ne, this]

theorem CoreState.reg_setReg (d r : Reg) (v : Big) : (c.setReg d v).reg r = if r = d then v else c.reg r := by
  by_cases h : r = d
  · simp [h]
  · simp [h]

/-- A register read sees the register file only. -/
theorem CoreState.reg_congr {c c' : CoreState} (h : c'.regs = c.regs) (r : Reg) : c'.reg r = c.reg r := by
  simp [CoreState.reg, h]

/-- A slot read sees the two key banks only. -/
theorem CoreState.slot_congr {c c' : CoreState} (hp : c'.kpriv = c.kpriv) (hq : c'.kpub = c.kpub) (k : Bank) (i : Slot) :
    c'.slot k i = c.slot k i := by
  cases k <;> simp [CoreState.slot, hp, hq]

@[simp] theorem CoreState.slot_setSlot_self (k : Bank) (i : Slot) (v : Big) : (c.setSlot k i v).slot k i = v := by
  cases k <;> simp [CoreState.slot]

theorem CoreState.slot_setSlot_of_ne {k k' : Bank} {i i' : Slot} (h : k' ≠ k ∨ i' ≠ i) (v : Big) :
    (c.setSlot k i v).slot k' i' = c.slot k' i' := by
  have hi : i' ≠ i → i.val ≠ i'.val := fun hne e => hne (Fin.ext e.symm)
  cases k <;> cases k' <;> simp_all [CoreState.slot, Vector.getElem_set_ne]

/-- A register's value is below 2^1024 (R20, R21). -/
theorem CoreState.num_lt (r : Reg) : c.num r < 2 ^ 1024 := (c.reg r).isLt

theorem CoreState.num_eq_zero (r : Reg) : c.num r = 0 ↔ c.reg r = 0 := by
  rw [CoreState.num, show (0 : Big) = 0#1024 from rfl, ← BitVec.toNat_inj, BitVec.toNat_zero]

theorem CoreState.privAt_eq (i : Slot) : c.privAt i.val = (c.slot .priv i).toNat := by
  simp [CoreState.privAt, CoreState.slot]

theorem CoreState.pubAt_eq (i : Slot) : c.pubAt i.val = (c.slot .pub i).toNat := by
  simp [CoreState.pubAt, CoreState.slot]

theorem CoreState.privAt_lt (i : Nat) : c.privAt i < 2 ^ 1024 := (c.kpriv[i]?.getD 0).isLt

theorem CoreState.pubAt_lt (i : Nat) : c.pubAt i < 2 ^ 1024 := (c.kpub[i]?.getD 0).isLt

end Registers

/-! ### Registers and key slots through the updates of other components -/

section Through

variable (c : CoreState) (r : Reg) (k : Bank) (i : Slot)

@[simp] theorem CoreState.slot_setReg (d : Reg) (v : Big) : (c.setReg d v).slot k i = c.slot k i := by cases k <;> rfl
@[simp] theorem CoreState.reg_setKpub (v : Vector Big 256) : (c.setKpub v).reg r = c.reg r := rfl
@[simp] theorem CoreState.reg_setBlk (v : Block) : (c.setBlk v).reg r = c.reg r := rfl
@[simp] theorem CoreState.slot_setBlk (v : Block) : (c.setBlk v).slot k i = c.slot k i := by cases k <;> rfl
@[simp] theorem CoreState.reg_setCf (b : Bool) : (c.setCf b).reg r = c.reg r := rfl
@[simp] theorem CoreState.slot_setCf (b : Bool) : (c.setCf b).slot k i = c.slot k i := by cases k <;> rfl
@[simp] theorem CoreState.reg_setZf (b : Bool) : (c.setZf b).reg r = c.reg r := rfl
@[simp] theorem CoreState.slot_setZf (b : Bool) : (c.setZf b).slot k i = c.slot k i := by cases k <;> rfl
@[simp] theorem CoreState.reg_setCmp (v : BitVec 2) : (c.setCmp v).reg r = c.reg r := rfl
@[simp] theorem CoreState.slot_setCmp (v : BitVec 2) : (c.setCmp v).slot k i = c.slot k i := by cases k <;> rfl
@[simp] theorem CoreState.reg_setVf (b : Bool) : (c.setVf b).reg r = c.reg r := rfl
@[simp] theorem CoreState.slot_setVf (b : Bool) : (c.setVf b).slot k i = c.slot k i := by cases k <;> rfl
@[simp] theorem CoreState.reg_markInovf : (c.markInovf).reg r = c.reg r := rfl
@[simp] theorem CoreState.slot_markInovf : (c.markInovf).slot k i = c.slot k i := by cases k <;> rfl
@[simp] theorem CoreState.reg_markOutunf : (c.markOutunf).reg r = c.reg r := rfl
@[simp] theorem CoreState.slot_markOutunf : (c.markOutunf).slot k i = c.slot k i := by cases k <;> rfl
@[simp] theorem CoreState.reg_clearSticky : (c.clearSticky).reg r = c.reg r := rfl
@[simp] theorem CoreState.slot_clearSticky : (c.clearSticky).slot k i = c.slot k i := by cases k <;> rfl
@[simp] theorem CoreState.reg_setDin (l : List Byte) : (c.setDin l).reg r = c.reg r := rfl
@[simp] theorem CoreState.slot_setDin (l : List Byte) : (c.setDin l).slot k i = c.slot k i := by cases k <;> rfl
@[simp] theorem CoreState.reg_setDout (l : List Byte) : (c.setDout l).reg r = c.reg r := rfl
@[simp] theorem CoreState.slot_setDout (l : List Byte) : (c.setDout l).slot k i = c.slot k i := by cases k <;> rfl
@[simp] theorem CoreState.reg_dropDin (n : Nat) : (c.dropDin n).reg r = c.reg r := rfl
@[simp] theorem CoreState.slot_dropDin (n : Nat) : (c.dropDin n).slot k i = c.slot k i := by cases k <;> rfl
@[simp] theorem CoreState.reg_pushDout (l : List Byte) : (c.pushDout l).reg r = c.reg r := rfl
@[simp] theorem CoreState.slot_pushDout (l : List Byte) : (c.pushDout l).slot k i = c.slot k i := by cases k <;> rfl
@[simp] theorem CoreState.reg_raise (e : CmdError) : (c.raise e).reg r = c.reg r := rfl
@[simp] theorem CoreState.slot_raise (e : CmdError) : (c.raise e).slot k i = c.slot k i := by cases k <;> rfl
@[simp] theorem CoreState.reg_complete : (c.complete).reg r = c.reg r := rfl
@[simp] theorem CoreState.slot_complete : (c.complete).slot k i = c.slot k i := by cases k <;> rfl
@[simp] theorem CoreState.reg_setSlot (k : Bank) (i : Slot) (v : Big) : (c.setSlot k i v).reg r = c.reg r := by cases k <;> rfl

end Through

section Banks

/-- Slot i of a bank given by a function. -/
@[simp] theorem bankOf_getElem (f : Nat → Big) (i : Nat) (h : i < 256) : (bankOf f)[i] = f i := by
  simp [bankOf]

@[simp] theorem CoreState.slot_setKpub_priv (c : CoreState) (v : Vector Big 256) (i : Slot) :
    (c.setKpub v).slot .priv i = c.slot .priv i := rfl

@[simp] theorem CoreState.slot_setKpub_pub (c : CoreState) (v : Vector Big 256) (i : Slot) :
    (c.setKpub v).slot .pub i = v[i.val] := rfl

end Banks

section ByteImages

@[simp] theorem leBytes_length (n v : Nat) : (leBytes n v).length = n := by simp [leBytes]

theorem leBytes_getElem (n v k : Nat) (h : k < (leBytes n v).length) :
    (leBytes n v)[k] = BitVec.ofNat 8 (v / 2 ^ (8 * k)) := by simp [leBytes]

@[simp] theorem recordBytes_length (v : Big) : (recordBytes v).length = 132 := by simp [recordBytes]

@[simp] theorem blockBytes_length (v : Block) : (blockBytes v).length = 32 := by simp [blockBytes]

theorem leBytes_succ (n v : Nat) : leBytes (n + 1) v = BitVec.ofNat 8 v :: leBytes n (v / 2 ^ 8) := by
  simp only [leBytes, List.range_succ_eq_map, List.map_cons, List.map_map]
  refine List.cons_eq_cons.2 ⟨by simp, List.map_congr_left fun k _ => ?_⟩
  have e : 2 ^ (8 * k.succ) = 2 ^ 8 * 2 ^ (8 * k) := by rw [← pow_add]; congr 1; omega
  simp only [Function.comp, Nat.div_div_eq_div_mul, e]

/-- Reading back the n bytes of a number gives the number modulo 2^(8n). -/
theorem leValue_leBytes (n v : Nat) : leValue (leBytes n v) = v % 2 ^ (8 * n) := by
  induction n generalizing v with
  | zero => simp [leBytes, leValue, Nat.mod_one]
  | succ n ih =>
    have e : 2 ^ (8 * (n + 1)) = 2 ^ 8 * 2 ^ (8 * n) := by rw [← pow_add]; congr 1; ring
    rw [leBytes_succ, leValue, ih, e, Nat.mod_mul]
    simp

/-- A byte list's value is below 2^(8 length). -/
theorem leValue_lt (l : List Byte) : leValue l < 2 ^ (8 * l.length) := by
  induction l with
  | nil => simp [leValue]
  | cons b bs ih =>
    have hb := b.isLt
    have e : 2 ^ (8 * (b :: bs).length) = 2 ^ 8 * 2 ^ (8 * bs.length) := by
      rw [List.length_cons, ← pow_add]; congr 1; ring
    rw [e, leValue]
    have : 2 ^ 8 * (leValue bs + 1) ≤ 2 ^ 8 * 2 ^ (8 * bs.length) := Nat.mul_le_mul_left _ ih
    omega

end ByteImages

section Endings

variable (s : State)

@[simp] theorem conclude_ok (c : CoreState) : conclude s (.ok c) = .next (s.withCore c.complete) := rfl

@[simp] theorem conclude_error (e : CmdError) : conclude s (.error e) = .next (s.withCore (s.core.raise e)) := rfl

omit s in
/-- Everything `conclude` can do: it answers a next state, in which only the CORE has changed, and either the
command's result is completed or the error is raised on the state before it. -/
theorem conclude_next {s : State} {r : Except CmdError CoreState} {t : State} (h : conclude s r = .next t) :
    t.host = s.host ∧ ((∃ c, r = .ok c ∧ t.core = c.complete) ∨ ∃ e, r = .error e ∧ t.core = s.core.raise e) := by
  cases r with
  | ok c => cases h; exact ⟨rfl, .inl ⟨c, rfl, rfl⟩⟩
  | error e => cases h; exact ⟨rfl, .inr ⟨e, rfl, rfl⟩⟩

/-- A result code is one of 1 to 7 (R221). -/
theorem CmdError.code_range (e : CmdError) : 1 ≤ e.code.toNat ∧ e.code.toNat ≤ 7 := by cases e <;> decide

theorem CmdError.code_ne_zero (e : CmdError) : e.code ≠ 0 := by cases e <;> decide

end Endings

section Operands

variable {c : CoreState}

/-- Everything a modulus operand can be (R140). -/
theorem CoreState.modulus_cases (c : CoreState) (n : Reg) :
    (c.num n = 0 ∧ c.modulus n = .error .zeroModulus) ∨ (0 < c.num n ∧ c.modulus n = .ok (c.num n)) := by
  by_cases h : c.num n = 0
  · exact .inl ⟨h, by simp [CoreState.modulus, h]⟩
  · exact .inr ⟨Nat.pos_of_ne_zero h, by simp [CoreState.modulus, h]⟩

/-- Everything the operands u and m of DECRYPT can be (R163). -/
theorem CoreState.keyPair_cases (c : CoreState) (u m : Reg) :
    ((c.num u = 0 ∨ c.num m = 0) ∧ c.keyPair u m = .error .invalidKey) ∨
      (0 < c.num u ∧ 0 < c.num m ∧ c.keyPair u m = .ok (c.num u, c.num m)) := by
  by_cases h : c.num u = 0 ∨ c.num m = 0
  · exact .inl ⟨h, by simp [CoreState.keyPair, h]⟩
  · exact .inr ⟨by omega, by omega, by simp [CoreState.keyPair, h]⟩

/-- Everything taking n bytes from DIN can do (R61). -/
theorem CoreState.dinOperand_cases (c : CoreState) (n : Nat) :
    (c.din.length < n ∧ c.dinOperand n = .error .shortRead) ∨
      (n ≤ c.din.length ∧ c.dinOperand n = .ok (c.din.take n)) := by
  by_cases h : c.din.length < n
  · exact .inl ⟨h, by simp [CoreState.dinOperand, h]⟩
  · exact .inr ⟨by omega, by simp [CoreState.dinOperand, CoreState.dinHead, h]⟩

/-- Everything appending bytes to DOUT can do (R61). -/
theorem CoreState.doutOperand_cases (c : CoreState) (bs : List Byte) :
    (Config.doutDepth - c.dout.length < bs.length ∧ c.doutOperand bs = .error .shortWrite) ∨
      (bs.length ≤ Config.doutDepth - c.dout.length ∧ c.doutOperand bs = .ok (c.pushDout bs)) := by
  by_cases h : c.doutFree < bs.length
  · exact .inl ⟨h, by simp [CoreState.doutOperand, h]⟩
  · exact .inr ⟨by simpa [CoreState.doutFree] using h, by simp [CoreState.doutOperand, h]⟩

end Operands

end Sys2Proof.Machine
end

