-- ==== Sys2Proof/Laws/HostPort.lean ====
section
/-! SUPPORT. What the host's side and one step can do, said once. -/

namespace Sys2Proof.Machine

/-- Everything one step can do: wait, serve a host access, refuse one, or run a command word. -/
theorem step_cases (s : State) :
    (s.host.pending = [] ∧ step s = .next s) ∨
      ∃ a rest, s.host.pending = a :: rest ∧
        ((∃ t, serve a (s.setPending rest) = .served t ∧ step s = .next t) ∨
          (∃ r, serve a (s.setPending rest) = .rejected r ∧ step s = .refused r) ∨
          ∃ w, serve a (s.setPending rest) = .command w (s.setPending rest) ∧
            step s = runWord w (s.setPending rest)) := by
  cases h : s.host.pending with
  | nil => exact .inl ⟨rfl, by simp [step, fetch, h]⟩
  | cons a rest =>
    refine .inr ⟨a, rest, rfl, ?_⟩
    cases ha : serve a (s.setPending rest) with
    | served t => exact .inl ⟨t, rfl, by simp [step, fetch, h, ha]⟩
    | rejected r => exact .inr (.inl ⟨r, rfl, by simp [step, fetch, h, ha]⟩)
    | command w t =>
      have ht : t = s.setPending rest := by
        cases a with
        | reset => simp [serve] at ha
        | read offset bytes => simp only [serve] at ha; split at ha <;> simp at ha
        | write offset bytes v =>
          simp only [serve] at ha
          split at ha
          · simp at ha
          · cases hw : windowReg offset <;> simp_all [portWrite]
      subst ht
      exact .inr (.inr ⟨w, rfl, by simp [step, fetch, h, ha]⟩)
    | idle =>
      exfalso
      cases a with
      | reset => simp [serve] at ha
      | read offset bytes => simp only [serve] at ha; split at ha <;> simp at ha
      | write offset bytes v =>
        simp only [serve] at ha
        split at ha
        · simp at ha
        · cases hw : windowReg offset <;> simp_all [portWrite]

/-- Everything a served host action can do to the CORE: reset it, leave it, pop DOUT, push DIN, or set INOVF or
OUTUNF. -/
theorem serve_served {a : HostAction} {s t : State} (h : serve a s = .served t) :
    t.core = CoreState.reset ∨ t.core = s.core ∨ t.core = (readDout s.core).2 ∨ ∃ v, t.core = writeDin s.core v := by
  cases a with
  | reset => simp only [serve, Fetched.served.injEq] at h; subst h; exact .inl rfl
  | read offset bytes =>
    simp only [serve] at h
    split at h
    · simp at h
    · simp only [Fetched.served.injEq] at h
      subst h
      cases hw : windowReg offset <;> simp [portRead]
  | write offset bytes v =>
    simp only [serve] at h
    split at h
    · simp at h
    · cases hw : windowReg offset <;> simp only [hw, portWrite, Fetched.served.injEq, reduceCtorEq] at h <;> subst h
      all_goals first | exact .inr (.inl rfl) | exact .inr (.inr (.inr ⟨v, rfl⟩))

/-- The state in which the host's next action is a write of a word to CMD. -/
@[simp] theorem withFetchWord_core (s : State) (n w : Nat) : (s.withFetchWord n w).core = s.core := rfl

@[simp] theorem withFetchWord_replies (s : State) (n w : Nat) : (s.withFetchWord n w).host.replies = s.host.replies := rfl

end Sys2Proof.Machine
end

