-- ==== Sys2Proof/Laws/PerInstr.lean ====
section
/-! SUPPORT. Per-instruction laws. The family EncodesRuleWord: what the encoder writes by R90's general formula is the word
that the command's own rule gives it. -/

namespace Sys2Proof.Laws

/-- The word of each command, as the number its own rule writes out (R102 to R181). -/
def ruleWord : Instr → Nat
  | .mov d a => 0x01000000 + d.val * 2 ^ 20 + a.val * 2 ^ 16
  | .ldi d imm => 0x02000000 + d.val * 2 ^ 20 + imm
  | .load d => 0x03000000 + d.val * 2 ^ 20
  | .store a => 0x04000000 + a.val * 2 ^ 20
  | .kld d k i => 0x05000000 + d.val * 2 ^ 20 + k.code * 2 ^ 8 + i.val
  | .kst a k i => 0x06000000 + a.val * 2 ^ 20 + k.code * 2 ^ 8 + i.val
  | .ldblk => 0x07000000
  | .stblk => 0x08000000
  | .add a b => 0x10000000 + a.val * 2 ^ 20 + b.val * 2 ^ 16
  | .sub a b => 0x11000000 + a.val * 2 ^ 20 + b.val * 2 ^ 16
  | .shl a sh => 0x12000000 + a.val * 2 ^ 20 + sh
  | .shr a sh => 0x13000000 + a.val * 2 ^ 20 + sh
  | .cmp a b => 0x14000000 + a.val * 2 ^ 20 + b.val * 2 ^ 16
  | .tstz a => 0x15000000 + a.val * 2 ^ 20
  | .reduce x n => 0x20000000 + x.val * 2 ^ 20 + n.val * 2 ^ 16
  | .mulmod d a b n => 0x21000000 + d.val * 2 ^ 20 + a.val * 2 ^ 16 + b.val * 2 ^ 12 + n.val * 2 ^ 8
  | .gcd d a b => 0x22000000 + d.val * 2 ^ 20 + a.val * 2 ^ 16 + b.val * 2 ^ 12
  | .modinv d v m => 0x23000000 + d.val * 2 ^ 20 + v.val * 2 ^ 16 + m.val * 2 ^ 12
  | .valsi d => 0x30000000 + d.val * 2 ^ 20
  | .derive v m => 0x31000000 + v.val * 2 ^ 20 + m.val * 2 ^ 16
  | .encrypt d => 0x32000000 + d.val * 2 ^ 20
  | .decrypt c u m => 0x33000000 + c.val * 2 ^ 20 + u.val * 2 ^ 16 + m.val * 2 ^ 12
  | .flush => 0x3E000000
  | .clre => 0x3F000000

/-- The encoder writes the word of the command's rule. -/
def EncodesRuleWord.Statement (i : Instr) : Prop := encode i = BitVec.ofNat 32 (ruleWord i)

/-- Two spellings of one number are one word. -/
theorem word_step {i : Instr} {m : Nat} (he : encode i = BitVec.ofNat 32 m) (h : m = ruleWord i) :
    EncodesRuleWord.Statement i := by
  rw [EncodesRuleWord.Statement, he, h]

theorem EncodesRuleWord.mov (d : Reg) (a : Reg) : EncodesRuleWord.Statement (.mov d a) :=
  word_step (by rw [encode, wordR, Instr.opcode]) (by rw [ruleWord]; omega)

theorem EncodesRuleWord.ldi (d : Reg) (imm : Nat) : EncodesRuleWord.Statement (.ldi d imm) :=
  word_step (by rw [encode, wordI, Instr.opcode]) (by rw [ruleWord]; omega)

theorem EncodesRuleWord.load (d : Reg) : EncodesRuleWord.Statement (.load d) :=
  word_step (by rw [encode, wordR, Instr.opcode]) (by rw [ruleWord]; omega)

theorem EncodesRuleWord.store (a : Reg) : EncodesRuleWord.Statement (.store a) :=
  word_step (by rw [encode, wordR, Instr.opcode]) (by rw [ruleWord]; omega)

theorem EncodesRuleWord.kld (d : Reg) (k : Bank) (i : Slot) : EncodesRuleWord.Statement (.kld d k i) :=
  word_step (by rw [encode, wordK, Instr.opcode]) (by rw [ruleWord]; omega)

theorem EncodesRuleWord.kst (a : Reg) (k : Bank) (i : Slot) : EncodesRuleWord.Statement (.kst a k i) :=
  word_step (by rw [encode, wordK, Instr.opcode]) (by rw [ruleWord]; omega)

theorem EncodesRuleWord.ldblk : EncodesRuleWord.Statement .ldblk := by
  unfold EncodesRuleWord.Statement; decide

theorem EncodesRuleWord.stblk : EncodesRuleWord.Statement .stblk := by
  unfold EncodesRuleWord.Statement; decide

theorem EncodesRuleWord.add (a : Reg) (b : Reg) : EncodesRuleWord.Statement (.add a b) :=
  word_step (by rw [encode, wordR, Instr.opcode]) (by rw [ruleWord]; omega)

theorem EncodesRuleWord.sub (a : Reg) (b : Reg) : EncodesRuleWord.Statement (.sub a b) :=
  word_step (by rw [encode, wordR, Instr.opcode]) (by rw [ruleWord]; omega)

theorem EncodesRuleWord.shl (a : Reg) (sh : Nat) : EncodesRuleWord.Statement (.shl a sh) :=
  word_step (by rw [encode, wordI, Instr.opcode]) (by rw [ruleWord]; omega)

theorem EncodesRuleWord.shr (a : Reg) (sh : Nat) : EncodesRuleWord.Statement (.shr a sh) :=
  word_step (by rw [encode, wordI, Instr.opcode]) (by rw [ruleWord]; omega)

theorem EncodesRuleWord.cmp (a : Reg) (b : Reg) : EncodesRuleWord.Statement (.cmp a b) :=
  word_step (by rw [encode, wordR, Instr.opcode]) (by rw [ruleWord]; omega)

theorem EncodesRuleWord.tstz (a : Reg) : EncodesRuleWord.Statement (.tstz a) :=
  word_step (by rw [encode, wordR, Instr.opcode]) (by rw [ruleWord]; omega)

theorem EncodesRuleWord.reduce (x : Reg) (n : Reg) : EncodesRuleWord.Statement (.reduce x n) :=
  word_step (by rw [encode, wordR, Instr.opcode]) (by rw [ruleWord]; omega)

theorem EncodesRuleWord.mulmod (d : Reg) (a : Reg) (b : Reg) (n : Reg) : EncodesRuleWord.Statement (.mulmod d a b n) :=
  word_step (by rw [encode, wordR, Instr.opcode]) (by rw [ruleWord]; omega)

theorem EncodesRuleWord.gcd (d : Reg) (a : Reg) (b : Reg) : EncodesRuleWord.Statement (.gcd d a b) :=
  word_step (by rw [encode, wordR, Instr.opcode]) (by rw [ruleWord]; omega)

theorem EncodesRuleWord.modinv (d : Reg) (v : Reg) (m : Reg) : EncodesRuleWord.Statement (.modinv d v m) :=
  word_step (by rw [encode, wordR, Instr.opcode]) (by rw [ruleWord]; omega)

theorem EncodesRuleWord.valsi (d : Reg) : EncodesRuleWord.Statement (.valsi d) :=
  word_step (by rw [encode, wordR, Instr.opcode]) (by rw [ruleWord]; omega)

theorem EncodesRuleWord.derive (v : Reg) (m : Reg) : EncodesRuleWord.Statement (.derive v m) :=
  word_step (by rw [encode, wordR, Instr.opcode]) (by rw [ruleWord]; omega)

theorem EncodesRuleWord.encrypt (d : Reg) : EncodesRuleWord.Statement (.encrypt d) :=
  word_step (by rw [encode, wordR, Instr.opcode]) (by rw [ruleWord]; omega)

theorem EncodesRuleWord.decrypt (c : Reg) (u : Reg) (m : Reg) : EncodesRuleWord.Statement (.decrypt c u m) :=
  word_step (by rw [encode, wordR, Instr.opcode]) (by rw [ruleWord]; omega)

theorem EncodesRuleWord.flush : EncodesRuleWord.Statement .flush := by
  unfold EncodesRuleWord.Statement; decide

theorem EncodesRuleWord.clre : EncodesRuleWord.Statement .clre := by
  unfold EncodesRuleWord.Statement; decide

end Sys2Proof.Laws
end

