-- ==== Sys2Proof/Tests/Slice0.lean ====
section
/-! SUPPORT. The model's own tests: the checks of WellFormed refuse ill-formed commands; each command decodes from a
word written out from 30_encoding.md R82 and R83; one-step tests whose values are the vectors of
95_test_vectors.md (named by their id); and, for each obligation with hypotheses, a witness that meets them. -/

namespace Sys2Proof.Tests

-- one theorem at a time: in parallel, the kernel evaluations below open more threads than the memory limit allows
set_option Elab.async false

open Sys2Proof Sys2Proof.Machine

/-! ## Small states -/

/-- The largest value of a register, 2^1024 - 1. -/
def top : Nat := 2 ^ 1024 - 1

/-- The reset state of the CORE, but for these registers. -/
def regs (l : List (Reg × Nat)) : CoreState :=
  l.foldl (fun c p => c.setReg p.1 (BitVec.ofNat 1024 p.2)) CoreState.reset

/-- The machine with this CORE and no host action. -/
def machine (c : CoreState) : State := { State.reset with core := c }

/-- The machine with this CORE and one host action to serve. -/
def asked (c : CoreState) (a : HostAction) : State := (machine c).setPending [a]

/-- The state an outcome leaves; the reset state where it leaves none. -/
def after (o : Host.Outcome State Fault Refusal) : State :=
  match o with
  | .next t => t
  | .fault _ => State.reset
  | .refused _ => State.reset

/-- The outcome is a next state. -/
def completes (o : Host.Outcome State Fault Refusal) : Bool :=
  match o with
  | .next _ => true
  | .fault _ => false
  | .refused _ => false

/-- An outcome that is a next state is the next state `after` gives. -/
theorem next_after (o : Host.Outcome State Fault Refusal) (h : completes o = true) : o = .next (after o) := by
  cases o with
  | next t => rfl
  | fault r => cases h
  | refused r => cases h

/-- The CORE after one step whose command word is w. -/
def ran (c : CoreState) (w : Nat) : CoreState := (after (step ((machine c).withFetchWord 32 w))).core

/-- Key T of 95_test_vectors.md: `KPRIV[i] = 2^i`, u, v and m in R3, R2 and R1. -/
def keyT : CoreState :=
  { regs [(1, 2 ^ 256 + 1), (2, 2 ^ 255 + 1), (3, 2)] with kpriv := bankOf fun i => BitVec.ofNat 1024 (2 ^ i) }

/-- A byte stream of n zero bytes. -/
def zeros (n : Nat) : List Byte := List.replicate n 0

/-- The reset machine with these bytes in DIN. -/
def withDin (bs : List Byte) : State := machine { CoreState.reset with din := bs }

/-- The reset machine with these bytes in DOUT. -/
def withDout (bs : List Byte) : State := machine { CoreState.reset with dout := bs }

theorem withDin_length (n : Nat) : (withDin (zeros n)).core.din.length = n := List.length_replicate

theorem withDout_length (n : Nat) : (withDout (zeros n)).core.dout.length = n := List.length_replicate

/-! ## WellFormed (R84): each check refuses what no word holds and accepts its bounds -/

theorem test_wellFormed_ldi : (Instr.ldi 3 65536).wellFormed = false ∧ (Instr.ldi 3 65535).wellFormed = true := by
  decide

theorem test_wellFormed_shl : (Instr.shl 3 1024).wellFormed = false ∧ (Instr.shl 3 1023).wellFormed = true := by
  decide

theorem test_wellFormed_shr : (Instr.shr 3 1024).wellFormed = false ∧ (Instr.shr 3 1023).wellFormed = true := by
  decide

/-! ## Decoding: words written out field by field, op_f1_f2_f3_f4_low (R82, R83) -/

theorem test_decode_data_movement :
    decode 0b00000001_0010_0011_0000_0000_00000000 = .ok (.mov 2 3) ∧
      decode 0b00000010_1001_0000_1000_0000_00000001 = .ok (.ldi 9 0x8001) ∧
      decode 0b00000011_1010_0000_0000_0000_00000000 = .ok (.load 10) ∧
      decode 0b00000100_0101_0000_0000_0000_00000000 = .ok (.store 5) ∧
      decode 0b00000101_0100_0000_0000_0000_10000010 = .ok (.kld 4 .priv 0x82) ∧
      decode 0b00000110_0100_0000_0000_0001_10000010 = .ok (.kst 4 .pub 0x82) ∧
      decode 0b00000111_0000_0000_0000_0000_00000000 = .ok .ldblk ∧
      decode 0b00001000_0000_0000_0000_0000_00000000 = .ok .stblk := by decide +kernel

theorem test_decode_add_sub :
    decode 0b00010000_0110_0111_0000_0000_00000000 = .ok (.add 6 7) ∧
      decode 0b00010001_0111_0110_0000_0000_00000000 = .ok (.sub 7 6) := by decide +kernel

theorem test_decode_shift_compare_zero :
    decode 0b00010010_0011_0000_0000_0010_00000001 = .ok (.shl 3 0x201) ∧
      decode 0b00010011_0011_0000_0000_0010_00000001 = .ok (.shr 3 0x201) ∧
      decode 0b00010100_0001_0010_0000_0000_00000000 = .ok (.cmp 1 2) ∧
      decode 0b00010101_0111_0000_0000_0000_00000000 = .ok (.tstz 7) := by decide +kernel

theorem test_decode_modular :
    decode 0b00100000_1000_0001_0000_0000_00000000 = .ok (.reduce 8 1) ∧
      decode 0b00100001_0001_0010_0011_0100_00000000 = .ok (.mulmod 1 2 3 4) ∧
      decode 0b00100010_0100_0010_0001_0000_00000000 = .ok (.gcd 4 2 1) ∧
      decode 0b00100011_0101_0010_0001_0000_00000000 = .ok (.modinv 5 2 1) := by decide +kernel

theorem test_decode_knapsack :
    decode 0b00110000_0100_0000_0000_0000_00000000 = .ok (.valsi 4) ∧
      decode 0b00110001_0010_0001_0000_0000_00000000 = .ok (.derive 2 1) ∧
      decode 0b00110010_0101_0000_0000_0000_00000000 = .ok (.encrypt 5) ∧
      decode 0b00110011_0101_0011_0001_0000_00000000 = .ok (.decrypt 5 3 1) := by decide +kernel

theorem test_decode_housekeeping :
    decode 0b00111110_0000_0000_0000_0000_00000000 = .ok .flush ∧
      decode 0b00111111_0000_0000_0000_0000_00000000 = .ok .clre := by decide +kernel

/-- X3, X4, X5, X6, C14: a bit that must be zero. -/
theorem test_decode_refuses_must_be_zero :
    [0x3F000001, 0x01210001, 0x02310001, 0x05000205, 0x12000400].map decode =
      List.replicate 5 (.error .mustBeZero) := by decide +kernel

/-- X1, X2, X7: reserved opcodes. -/
theorem test_decode_refuses_reserved :
    [0x00000000, 0xFFFFFFFF, 0x09000000, 0x16000000, 0x24000000, 0x34000000, 0x3D000000, 0x40000000].map decode =
      List.replicate 8 (.error .reservedOpcode) := by decide +kernel

/-! ## One step of each command, from the vectors of 95_test_vectors.md -/

/-- A2 and A6. -/
theorem test_add_carry :
    (ran (regs [(0, top), (1, 1)]) 0x10010000).num 0 = 0 ∧ (ran (regs [(0, top), (1, 1)]) 0x10010000).cf = true ∧
      (ran (regs [(3, 2 ^ 1023 + 5)]) 0x10330000).num 3 = 10 := by decide +kernel

/-- B5. -/
theorem test_sub_borrow :
    (ran (regs [(0, 3), (1, 5)]) 0x11010000).num 0 = top - 1 ∧
      (ran (regs [(0, 3), (1, 5)]) 0x11010000).cf = true := by decide +kernel

/-- C3 and C4. -/
theorem test_shl_loses_high_bits :
    (ran (regs [(0, 0x123456789ABCDEF)]) 0x12000024).num 0 = 0x123456789ABCDEF000000000 ∧
      (ran (regs [(0, 3)]) 0x120003FF).num 0 = 2 ^ 1023 := by decide +kernel

/-- C8 and C10. -/
theorem test_shr_is_logical :
    (ran (regs [(0, 0x10000000200000001)]) 0x13000021).num 0 = 0x80000001 ∧
      (ran (regs [(0, 2 ^ 1023)]) 0x130003FF).num 0 = 1 := by decide +kernel

/-- D1 and D4. -/
theorem test_cmp_is_unsigned :
    statusWord (ran (regs [(0, 3), (1, 42)]) 0x14010000) = 0xC ∧
      (ran (regs [(0, 2 ^ 1023), (1, 2 ^ 1023 - 1)]) 0x14010000).cmp = 0b01 := by decide +kernel

/-- D8 and D10. -/
theorem test_tstz :
    statusWord (ran CoreState.reset 0x15700000) = 2 ∧
      (ran (regs [(7, 2 ^ 1023)]) 0x15700000).zf = false := by decide +kernel

/-- G1. -/
theorem test_mov : (ran (regs [(1, 30)]) 0x01210000).num 2 = 30 := by decide +kernel

/-- G3. -/
theorem test_ldi_clears_high_limbs : (ran (regs [(9, top)]) 0x0290FFFF).num 9 = 0xFFFF := by decide +kernel

/-- The record of R122's example. -/
theorem test_load_record :
    (ran { CoreState.reset with din := [0x01, 0x40] ++ zeros 29 ++ [0x80] ++ zeros 100 } 0x03600000).num 6 =
      2 ^ 255 + 0x4001 := by decide +kernel

/-- G18: BAD_GUARD keeps DIN. -/
theorem test_load_bad_guard :
    statusWord (ran { CoreState.reset with din := zeros 131 ++ [0x80] } 0x03600000) = 0x00010700 ∧
      (ran { CoreState.reset with din := zeros 131 ++ [0x80] } 0x03600000).din.length = 132 := by decide +kernel

/-- G13. -/
theorem test_store_record :
    (ran (regs [(5, 0xBEEF * 2 ^ 768)]) 0x04500000).dout = zeros 96 ++ [0xEF, 0xBE] ++ zeros 34 := by decide +kernel

/-- G6 and G7: the bank bit selects. -/
theorem test_kld_bank :
    (ran (((regs []).setSlot .pub 5 16).setSlot .priv 5 32) 0x05000105).num 0 = 16 ∧
      (ran (((regs []).setSlot .pub 5 16).setSlot .priv 5 32) 0x05000005).num 0 = 32 := by decide +kernel

/-- G5. -/
theorem test_kst : (ran (regs [(7, 2 ^ 255)]) 0x067000FF).privAt 255 = 2 ^ 255 := by decide +kernel

/-- G8 and G10. -/
theorem test_ldblk_byte_order :
    (ran { CoreState.reset with din := [0x01, 0x80] ++ zeros 30 } 0x07000000).blk = 0x8001 ∧
      (ran { CoreState.reset with din := zeros 31 ++ [0x80] } 0x07000000).blk.toNat = 2 ^ 255 := by decide +kernel

/-- G12. -/
theorem test_stblk_byte_order :
    (ran { CoreState.reset with blk := 0x8001 } 0x08000000).dout = [0x01, 0x80] ++ zeros 30 := by decide +kernel

/-- E4 and E9. -/
theorem test_reduce :
    (ran (regs [(0, top), (1, 2 ^ 1023 + 1)]) 0x20010000).num 0 = 2 ^ 1023 - 2 ∧
      statusWord (ran (regs [(0, 9)]) 0x20010000) = 0x00010400 := by decide +kernel

/-- E12 and E19. -/
theorem test_mulmod :
    (ran (regs [(5, top), (2, top - 1), (1, 2 ^ 1023 + 7)]) 0x21652100).num 6 = 240 ∧
      (ran (regs [(1, 7), (2, 5), (3, 6)]) 0x21123100).num 1 = 2 := by decide +kernel

/-- E23 and E26. -/
theorem test_gcd :
    (ran (regs [(2, top), (1, 2 ^ 512 - 1)]) 0x22421000).num 4 = 2 ^ 512 - 1 ∧
      (ran (regs [(2, 12)]) 0x22421000).num 4 = 12 := by decide +kernel

/-- F5 and F8. -/
theorem test_modinv_value :
    (ran (regs [(2, 65535), (1, 65521)]) 0x23521000).num 5 = 60841 ∧
      (ran (regs [(2, 2 ^ 255 + 1), (1, 2 ^ 256 + 1)]) 0x23521000).num 5 = 2 := by decide +kernel

/-- F14, F16 and F11: NO_INVERSE, ZERO_MODULUS before NO_INVERSE, and the modulus 1. -/
theorem test_modinv_corners :
    (ran (regs [(2, 2 ^ 1023 + 1), (1, top)]) 0x23521000).rc = 0x05 ∧ (ran (regs []) 0x23521000).rc = 0x04 ∧
      statusWord (ran (regs [(1, 1)]) 0x23521000) = 0 := by decide +kernel

/-- K1. -/
theorem test_valsi_key : statusWord (ran keyT 0x30400000) = 0x10 ∧ (ran keyT 0x30400000).num 4 = 2 ^ 256 - 1 := by
  decide +kernel

/-- K2: the total is taken over all elements. -/
theorem test_valsi_not_superincreasing :
    (ran (keyT.setSlot .priv 3 7) 0x30400000).vf = false ∧
      (ran (keyT.setSlot .priv 3 7) 0x30400000).num 4 = 2 ^ 256 - 2 := by decide +kernel

/-- K6. -/
theorem test_derive :
    (ran keyT 0x31210000).pubAt 0 = 2 ^ 255 + 1 ∧ (ran keyT 0x31210000).pubAt 15 = 0x4000 ∧
      (ran keyT 0x31210000).pubAt 255 = 2 ^ 254 := by decide +kernel

/-- K8b: the wrap. -/
theorem test_encrypt_wraps :
    (ran { ((regs []).setSlot .pub 0 (BitVec.ofNat 1024 top)).setSlot .pub 1 2 with blk := 3 } 0x32500000).num 5 = 1 ∧
      (ran { ((regs []).setSlot .pub 0 (BitVec.ofNat 1024 top)).setSlot .pub 1 2 with blk := 3 } 0x32500000).cf =
        true := by decide +kernel

/-- K9a. -/
theorem test_decrypt : (ran (keyT.setReg 5 (BitVec.ofNat 1024 (2 ^ 255 + 0x4001))) 0x33531000).blk = 0x8001 := by
  decide +kernel

/-- K10 and K12. -/
theorem test_decrypt_corners :
    statusWord (ran (regs []) 0x33531000) = 0x00010600 ∧
      (ran (regs [(1, 1), (2, 1)]) 0x33012000).blk.toNat = 2 ^ 256 - 1 := by decide +kernel

/-- P4, step 7: FLUSH keeps ESTICKY. -/
theorem test_flush :
    statusWord (ran { CoreState.reset with din := zeros 131, rc := 2, esticky := true } 0x3E000000) = 0x00010000 ∧
      (ran { CoreState.reset with din := zeros 131, rc := 2, esticky := true } 0x3E000000).din = [] := by
  decide +kernel

/-- X8. -/
theorem test_clre : statusWord (ran { CoreState.reset with rc := 1, esticky := true } 0x3F000000) = 0 := by
  decide +kernel

/-- X9: an illegal word keeps the flags. -/
theorem test_illegal_keeps_flags :
    statusWord (ran { CoreState.reset with cf := true, cmp := 0b11 } 0x00000000) = 0x0001010D := by decide +kernel

/-- X12. -/
theorem test_read_of_empty_dout :
    (after (step (asked CoreState.reset (.read 0x10 4)))).core.outunf = true ∧
      (after (step (asked CoreState.reset (.read 0x10 4)))).host.replies = [0] := by decide +kernel

/-- X16. -/
theorem test_write_of_din :
    (after (step (asked CoreState.reset (.write 0x0C 4 0x12345678)))).core.din = [0x78] := by decide +kernel

/-! ## Witnesses: for each obligation with hypotheses, states and operands that meet them -/

/-- The state after a command that completes. -/
theorem witness_next (i : Instr) (s : State) (h : completes (exec i s) = true) : exec i s = .next (after (exec i s)) :=
  next_after _ h

theorem witness_StepKeepsLegal :
    (asked CoreState.reset (.write 0x0C 4 7)).Legal ∧
      step (asked CoreState.reset (.write 0x0C 4 7)) = .next (after (step (asked CoreState.reset (.write 0x0C 4 7)))) :=
  ⟨⟨by decide, by decide, Nat.zero_le _, Nat.zero_le _⟩, next_after _ (by decide +kernel)⟩

theorem witness_StepRunsDecodedCommand :
    (asked CoreState.reset (.write 0x04 4 0x01210000)).host.pending = [.write 0x04 4 0x01210000] ∧
      decode 0x01210000 = .ok (.mov 2 1) ∧ (Instr.mov 2 1).wellFormed = true := by decide +kernel

theorem witness_IdleStepWaits : State.reset.host.pending = [] := rfl

theorem witness_ResetActionResets : (asked keyT .reset).host.pending = [.reset] := rfl

theorem witness_DecodeOfEncode :
    (Instr.ldi 15 65535).wellFormed = true ∧ (Instr.shl 15 1023).wellFormed = true ∧
      (Instr.kst 7 .priv 255).wellFormed = true := by decide

theorem witness_EncodeOfDecode : decode 0x0290FFFF = .ok (.ldi 9 65535) := by decide +kernel

theorem witness_DecodeMatchesOpcodeTable :
    decode 0x21652100 = .ok (.mulmod 6 5 2 1) ∧ ⟨0x21, "MULMOD", .r4⟩ ∈ opcodeRows ∧
      OpcodeRow.matchesWord ⟨0x21, "MULMOD", .r4⟩ 0x21652100 = true := by decide +kernel

/-- Both ends of every range of R86. -/
theorem witness_ReservedOpcodeRaises :
    [0x00, 0x09, 0x0F, 0x16, 0x1F, 0x24, 0x2F, 0x34, 0x3D, 0x40, 0xFF].all (fun n =>
      let op := (BitVec.ofNat 32 (n * 2 ^ 24 + 0x00FFFFFF)).toNat / 2 ^ 24
      decide (op = 0x00 ∨ (0x09 ≤ op ∧ op ≤ 0x0F) ∨ (0x16 ≤ op ∧ op ≤ 0x1F) ∨ (0x24 ≤ op ∧ op ≤ 0x2F) ∨
        (0x34 ≤ op ∧ op ≤ 0x3D) ∨ 0x40 ≤ op)) = true := by decide +kernel

/-- For every row and each of the low 24 bits: the word with that bit set meets the hypothesis if the mask has it. -/
theorem witness_MustBeZeroRaises :
    opcodeRows.all (fun row => (List.range 24).all fun n =>
      let w : Word := BitVec.ofNat 32 (row.op * 2 ^ 24 + 2 ^ n)
      decide (w.toNat / 2 ^ 24 = row.op) && (decide (w &&& row.format.mbz ≠ 0) == row.format.mbz.getLsbD n)) =
        true := by decide +kernel

theorem witness_ErrorChangesNothingElse_error :
    completes (exec (.reduce 0 1) State.reset) = true ∧ (after (exec (.reduce 0 1) State.reset)).core.rc ≠ 0 := by
  decide +kernel

theorem witness_ErrorChangesNothingElse_ok :
    completes (exec (.mov 0 1) State.reset) = true ∧ (after (exec (.mov 0 1) State.reset)).core.rc = 0 ∧
      Instr.mov 0 1 ≠ .clre := by decide +kernel

theorem witness_FlagsWrittenByTheirCommandsOnly :
    (after (exec (.add 0 1) (machine (regs [(0, top), (1, 1)])))).core.cf ≠ false ∧
      (after (exec (.tstz 0) State.reset)).core.zf ≠ false ∧
      (after (exec (.cmp 0 1) (machine (regs [(1, 1)])))).core.cmp ≠ 0 ∧
      (after (exec (.valsi 4) (machine keyT))).core.vf ≠ false ∧
      (after (exec .ldblk State.reset)).core.rc ≠ 0 := by decide +kernel

theorem witness_ZeroModulusRaises : State.reset.core.num 1 = 0 := by decide +kernel

theorem witness_LdiResult : 0 ≤ 65535 ∧ 65535 ≤ 65535 := ⟨Nat.zero_le _, Nat.le_refl _⟩

theorem witness_LoadResult_short : (withDin (zeros 131)).core.din.length < 132 := by decide +kernel

theorem witness_LoadResult_guard :
    132 ≤ (withDin (zeros 131 ++ [0x80])).core.din.length ∧
      wordAt (withDin (zeros 131 ++ [0x80])).core.din 32 ≠ 0 := by decide +kernel

/-- Exactly a record, and a record and one byte more. -/
theorem witness_LoadResult_value :
    132 ≤ (withDin (zeros 132)).core.din.length ∧ wordAt (withDin (zeros 132)).core.din 32 = 0 ∧
      132 ≤ (withDin (zeros 132 ++ [9])).core.din.length ∧
      wordAt (withDin (zeros 132 ++ [9])).core.din 32 = 0 := by decide +kernel

/-- Room for 131 bytes, and a full DOUT. -/
theorem witness_StoreResult_short :
    Config.doutDepth - (withDout (zeros (Config.doutDepth - 131))).core.dout.length < 132 ∧
      Config.doutDepth - (withDout (zeros Config.doutDepth)).core.dout.length < 132 := by
  rw [withDout_length, withDout_length, Config.doutDepth]; omega

/-- Room for exactly 132 bytes, and an empty DOUT. -/
theorem witness_StoreResult_value :
    132 ≤ Config.doutDepth - (withDout (zeros (Config.doutDepth - 132))).core.dout.length ∧
      132 ≤ Config.doutDepth - State.reset.core.dout.length := by
  rw [withDout_length, Config.doutDepth]
  exact ⟨by omega, Nat.le_add_left 132 Config.doutSpare⟩

theorem witness_LdblkResult :
    (withDin (zeros 31)).core.din.length < 32 ∧ 32 ≤ (withDin (zeros 32)).core.din.length := by decide

/-- Room for 31 bytes. -/
theorem witness_StblkResult_short :
    Config.doutDepth - (withDout (zeros (Config.doutDepth - 31))).core.dout.length < 32 := by
  rw [withDout_length, Config.doutDepth]; omega

/-- Room for exactly 32 bytes. -/
theorem witness_StblkResult_value :
    32 ≤ Config.doutDepth - (withDout (zeros (Config.doutDepth - 32))).core.dout.length := by
  rw [withDout_length, Config.doutDepth]; omega

theorem witness_LoadUndoesStore :
    132 ≤ Config.doutDepth - State.reset.core.dout.length ∧
      exec (.store 5) (machine (regs [(5, top)])) = .next (after (exec (.store 5) (machine (regs [(5, top)])))) ∧
      (after (exec (.store 5) (machine (regs [(5, top)])))).core.dout =
        (machine (regs [(5, top)])).core.dout ++ recordBytes (BitVec.ofNat 1024 top) ∧
      (withDin (recordBytes (BitVec.ofNat 1024 top) ++ [1])).core.din =
        recordBytes (BitVec.ofNat 1024 top) ++ [1] :=
  ⟨Nat.le_add_left 132 Config.doutSpare, next_after _ (by decide +kernel), by decide +kernel, rfl⟩

/-- The machine with a block of 32 bytes in DIN, and one byte more. -/
def blockWaiting : State := withDin ([0x01, 0x80] ++ zeros 31)

theorem witness_StblkUndoesLdblk :
    32 ≤ blockWaiting.core.din.length ∧ 32 ≤ Config.doutDepth - blockWaiting.core.dout.length ∧
      exec .ldblk blockWaiting = .next (after (exec .ldblk blockWaiting)) :=
  ⟨by decide, Nat.le_trans (by decide) (Nat.le_add_left 132 Config.doutSpare), next_after _ (by decide +kernel)⟩

theorem witness_RecordReadAsBlock :
    (withDin (recordBytes (BitVec.ofNat 1024 (2 ^ 255 + 0x4001)) ++ [])).core.din =
      recordBytes (BitVec.ofNat 1024 (2 ^ 255 + 0x4001)) ++ [] := rfl

theorem witness_ShlResult : 0 ≤ 1023 ∧ 1023 ≤ 1023 := by decide

theorem witness_ShrResult : 0 ≤ 1023 ∧ 1023 ≤ 1023 := by decide

theorem witness_LimbShiftsMatch : 0 ≤ 1023 ∧ 31 ≤ 1023 ∧ 32 ≤ 1023 ∧ 1023 ≤ 1023 := by decide

theorem witness_ReduceResult : State.reset.core.num 1 = 0 ∧ (regs [(1, top)]).num 1 ≠ 0 := by decide +kernel

theorem witness_MulmodResult : State.reset.core.num 1 = 0 ∧ (regs [(1, 1)]).num 1 ≠ 0 := by decide +kernel

theorem witness_GcdResult : State.reset.core.num 1 = 0 ∧ State.reset.core.num 2 = 0 := by decide +kernel

/-- A zero modulus; 2 and 4; 3 and 4; the modulus 1. -/
theorem witness_ModinvResult :
    State.reset.core.num 1 = 0 ∧
      ((regs [(2, 2), (1, 4)]).num 1 ≠ 0 ∧ Nat.gcd ((regs [(2, 2), (1, 4)]).num 2) 4 ≠ 1) ∧
      ((regs [(2, 3), (1, 4)]).num 1 ≠ 0 ∧ Nat.gcd ((regs [(2, 3), (1, 4)]).num 2) 4 = 1) ∧
      ((regs [(1, 1)]).num 1 ≠ 0 ∧ Nat.gcd ((regs [(1, 1)]).num 2) 1 = 1) := by decide +kernel

theorem witness_ShiftSubtractIsRemainder : top < 2 ^ 1024 ∧ 0 < 1 ∧ (regs [(1, 7)]).num 1 ≠ 0 := by decide +kernel

theorem witness_DigitSerialProductMatches : (regs [(1, 30)]).num 1 ≠ 0 := by decide +kernel

/-- The inverse of V modulo M asked for: V in R2, M in R1, the constant 1 in R3. -/
def inverting (V M : Nat) : State := machine (regs [(1, M), (2, V), (3, 1)])

/-- M = 30: the inverse goes to R5, its validation to R6. -/
theorem witness_InverseValidates_pair :
    (5 : Reg) ≠ 2 ∧ (5 : Reg) ≠ 1 ∧ (3 : Reg) ≠ 5 ∧ (3 : Reg) ≠ 6 ∧ (inverting 17 30).core.num 3 = 1 ∧
      completes (exec (.modinv 5 2 1) (inverting 17 30)) = true ∧
      (after (exec (.modinv 5 2 1) (inverting 17 30))).core.rc = 0 ∧ 2 ≤ (inverting 17 30).core.num 1 := by
  decide +kernel

/-- M = 1. -/
theorem witness_InverseValidates_one :
    (inverting 5 1).core.num 3 = 1 ∧ completes (exec (.modinv 5 2 1) (inverting 5 1)) = true ∧
      (after (exec (.modinv 5 2 1) (inverting 5 1))).core.rc = 0 ∧ (inverting 5 1).core.num 1 = 1 := by decide +kernel

theorem witness_DeriveResult : (regs []).num 1 = 0 ∧ keyT.num 1 ≠ 0 := by decide +kernel

theorem witness_DecryptResult :
    ((regs [(1, 1)]).num 3 = 0 ∨ (regs [(1, 1)]).num 1 = 0) ∧ ((regs [(3, 1)]).num 3 = 0 ∨ (regs [(3, 1)]).num 1 = 0) ∧
      keyT.num 3 ≠ 0 ∧ keyT.num 1 ≠ 0 := by decide +kernel

/-- Key T, validated. -/
def validated : State := after (exec (.valsi 4) (machine keyT))

/-- Key T, its public key derived. -/
def derived : State := after (exec (.derive 2 1) validated)

/-- Key T with a block to encrypt. -/
def holdingBlock : State := derived.withCore (derived.core.setBlk 0x8001)

/-- Key T with the ciphertext of that block. -/
def encrypted : State := after (exec (.encrypt 5) holdingBlock)

/-- The same, BLK cleared before decryption (P3, step 24). -/
def blockCleared : State := encrypted.withCore (encrypted.core.setBlk 0)

theorem witness_DecryptUndoesEncrypt :
    exec (.valsi 4) (machine keyT) = .next validated ∧ validated.core.vf = true ∧ validated.core.cf = false ∧
      validated.core.num 4 < validated.core.num 1 ∧
      validated.core.num 3 * validated.core.num 2 % validated.core.num 1 = 1 ∧
      exec (.derive 2 1) validated = .next derived ∧
      (∀ i, holdingBlock.core.slot .pub i = derived.core.slot .pub i) ∧
      exec (.encrypt 5) holdingBlock = .next encrypted ∧ encrypted.core.cf = false ∧
      (∀ i, blockCleared.core.slot .priv i = validated.core.slot .priv i) ∧
      blockCleared.core.reg 5 = encrypted.core.reg 5 ∧ blockCleared.core.reg 3 = validated.core.reg 3 ∧
      blockCleared.core.reg 1 = validated.core.reg 1 ∧ blockCleared.core.blk ≠ holdingBlock.core.blk :=
  ⟨next_after _ (by decide +kernel), by decide +kernel, by decide +kernel, by decide +kernel, by decide +kernel,
    next_after _ (by decide +kernel), by decide +kernel, next_after _ (by decide +kernel), by decide +kernel,
    by decide +kernel, by decide +kernel, by decide +kernel, by decide +kernel, by decide +kernel⟩

theorem witness_StatusWindow :
    (asked keyT (.read 0x08 4)).host.pending = [.read 0x08 4] ∧
      (asked keyT (.write 0x08 4 5)).host.pending = [.write 0x08 4 5] := ⟨rfl, rfl⟩

theorem witness_DinPush_room :
    (asked CoreState.reset (.write 0x0C 4 5)).host.pending = [.write 0x0C 4 5] ∧
      (withDin (zeros (Config.dinDepth - 1))).core.din.length < Config.dinDepth := by
  rw [withDin_length, Config.dinDepth]
  exact ⟨rfl, by omega⟩

theorem witness_DinPush_full : (withDin (zeros Config.dinDepth)).core.din.length = Config.dinDepth :=
  withDin_length _

theorem witness_DoutPop :
    (asked CoreState.reset (.read 0x10 4)).host.pending = [.read 0x10 4] ∧ CoreState.reset.dout = [] ∧
      (withDout [7]).core.dout = 7 :: [] := ⟨rfl, rfl, rfl⟩

theorem witness_IdAndCounts :
    [0x00, 0x14, 0x18].map (fun off => (asked CoreState.reset (.read off 4)).host.pending) =
        [[.read 0x00 4], [.read 0x14 4], [.read 0x18 4]] ∧
      CoreState.reset.din.length < 2 ^ 32 ∧ (withDin (zeros (2 ^ 32 - 1))).core.din.length < 2 ^ 32 ∧
      CoreState.reset.dout.length < 2 ^ 32 := by
  rw [withDin_length]
  exact ⟨rfl, by decide, by decide, by decide⟩

theorem witness_WrongDirectionAccesses :
    (asked keyT (.read 0x1C 4)).host.pending = [.read 0x1C 4] ∧ 0x1C ∈ [0x04, 0x0C, 0x1C] ∧
      (asked keyT (.write 0x00 4 5)).host.pending = [.write 0x00 4 5] ∧
      0x00 ∈ [0x00, 0x08, 0x10, 0x14, 0x18, 0x1C] := ⟨rfl, by decide, rfl, by decide⟩

/-- A width of 2 and of 8; offsets 1 and 31; offset 32; offset 28. -/
theorem witness_OtherAccessesRefused :
    (asked keyT (.read 0 2)).host.pending = [.read 0 2] ∧ 2 ≠ 4 ∧ 8 ≠ 4 ∧
      ((asked keyT (.write 31 4 0)).host.pending = [.write 31 4 0] ∧ 1 % 4 ≠ 0 ∧ 31 % 4 ≠ 0) ∧
      (32 % 4 = 0 ∧ 32 ≤ 32) ∧ 28 % 4 = 0 ∧ 28 < 32 :=
  ⟨rfl, by decide, by decide, ⟨rfl, by decide, by decide⟩, by decide⟩

/-- The first and the last address of the window, each value of address bits 4:2, an aligned access of each kind, and
the first address beyond the window. -/
theorem witness_WindowPlacement :
    (Config.base ≤ Config.base ∧ Config.base < Config.base + 32) ∧
      (Config.base ≤ Config.base + 31 ∧ Config.base + 31 < Config.base + 32) ∧
      (∀ k < 8, Config.base + 4 * k < Config.base + 32 ∧ (Config.base + 4 * k) / 4 % 8 = k ∧
        (Config.base + 4 * k) % 4 = 0) ∧
      (asked keyT (.read 8 4)).host.pending = [.read 8 4] ∧
      (asked keyT (.write 12 4 5)).host.pending = [.write 12 4 5] ∧
      (Config.base + 32 < Config.base ∨ Config.base + 32 ≤ Config.base + 32) := by
  refine ⟨by omega, by omega, fun k hk => ?_, rfl, rfl, by omega⟩
  rw [Config.base]
  omega

end Sys2Proof.Tests
end

section
/-! PROOF. How every command ends (R11, R220, R221): what the checked computations can answer, the frame of each kind of
completed command, and from both that a command either completes within its own writes or raises one of its own codes. -/

namespace Sys2Proof.Machine

/-! ## What the checked computations can answer -/

section Computations

variable (c : CoreState)

/-- Everything LOAD can compute, its tests in R122's order. -/
theorem loadRecord_cases (d : Reg) :
    (c.din.length < 132 ∧ loadRecord d c = .error .shortRead) ∨
      (132 ≤ c.din.length ∧ recordGuard (c.din.take 132) ≠ 0 ∧ loadRecord d c = .error .badGuard) ∨
      (132 ≤ c.din.length ∧ recordGuard (c.din.take 132) = 0 ∧
        loadRecord d c = .ok ((c.dropDin 132).setReg d (recordValue (c.din.take 132)))) := by
  obtain ⟨hlen, hdin⟩ | ⟨hlen, hdin⟩ := c.dinOperand_cases 132
  · exact .inl ⟨hlen, by simp [loadRecord, hdin]⟩
  · by_cases hg : recordGuard (c.din.take 132) = 0
    · exact .inr (.inr ⟨hlen, hg, by simp [loadRecord, hdin, hg]⟩)
    · exact .inr (.inl ⟨hlen, hg, by simp [loadRecord, hdin, hg]⟩)

/-- Everything LDBLK can compute (R126). -/
theorem loadBlock_cases :
    (c.din.length < 32 ∧ loadBlock c = .error .shortRead) ∨
      (32 ≤ c.din.length ∧ loadBlock c = .ok ((c.dropDin 32).setBlk (blockValue (c.din.take 32)))) := by
  obtain ⟨hlen, hdin⟩ | ⟨hlen, hdin⟩ := c.dinOperand_cases 32
  · exact .inl ⟨hlen, by simp [loadBlock, hdin]⟩
  · exact .inr ⟨hlen, by simp [loadBlock, hdin]⟩

/-- Everything REDUCE can compute (R141). -/
theorem reduceReg_cases (x n : Reg) :
    (c.num n = 0 ∧ reduceReg x n c = .error .zeroModulus) ∨
      (0 < c.num n ∧ reduceReg x n c = .ok (c.setReg x (BitVec.ofNat 1024 (c.num x % c.num n)))) := by
  obtain ⟨hn, hm⟩ | ⟨hn, hm⟩ := c.modulus_cases n
  · exact .inl ⟨hn, by simp only [reduceReg, hm]⟩
  · exact .inr ⟨hn, by simp only [reduceReg, hm]⟩

/-- Everything MULMOD can compute (R142). -/
theorem mulmodReg_cases (d a b n : Reg) :
    (c.num n = 0 ∧ mulmodReg d a b n c = .error .zeroModulus) ∨
      (0 < c.num n ∧
        mulmodReg d a b n c = .ok (c.setReg d (BitVec.ofNat 1024 (c.num a * c.num b % c.num n)))) := by
  obtain ⟨hn, hm⟩ | ⟨hn, hm⟩ := c.modulus_cases n
  · exact .inl ⟨hn, by simp only [mulmodReg, hm]⟩
  · exact .inr ⟨hn, by simp only [mulmodReg, hm]⟩

/-- Everything MODINV can compute, its tests in R150's order. -/
theorem modinvReg_cases (d v m : Reg) :
    (c.num m = 0 ∧ modinvReg d v m c = .error .zeroModulus) ∨
      (0 < c.num m ∧ gcdValue (c.num v) (c.num m) ≠ 1 ∧ modinvReg d v m c = .error .noInverse) ∨
      (0 < c.num m ∧ gcdValue (c.num v) (c.num m) = 1 ∧
        modinvReg d v m c = .ok (c.setReg d (BitVec.ofNat 1024 (inverseValue (c.num v) (c.num m))))) := by
  obtain ⟨hn, hm⟩ | ⟨hn, hm⟩ := c.modulus_cases m
  · exact .inl ⟨hn, by simp only [modinvReg, hm]⟩
  · by_cases hg : gcdValue (c.num v) (c.num m) = 1
    · exact .inr (.inr ⟨hn, hg, by simp only [modinvReg, hm, hg, ne_eq, not_true, if_false]⟩)
    · exact .inr (.inl ⟨hn, hg, by simp only [modinvReg, hm, hg, ne_eq, not_false_eq_true, if_true]⟩)

/-- Everything DERIVE can compute (R161). -/
theorem derivePub_cases (v m : Reg) :
    (c.num m = 0 ∧ derivePub v m c = .error .zeroModulus) ∨
      (0 < c.num m ∧
        derivePub v m c = .ok (c.setKpub (bankOf fun i => BitVec.ofNat 1024 (c.privAt i * c.num v % c.num m)))) := by
  obtain ⟨hn, hm⟩ | ⟨hn, hm⟩ := c.modulus_cases m
  · exact .inl ⟨hn, by simp only [derivePub, hm]⟩
  · exact .inr ⟨hn, by simp only [derivePub, hm]⟩

/-- Everything DECRYPT can compute (R163). -/
theorem decryptBlk_cases (rc ru rm : Reg) :
    ((c.num ru = 0 ∨ c.num rm = 0) ∧ decryptBlk rc ru rm c = .error .invalidKey) ∨
      (0 < c.num ru ∧ 0 < c.num rm ∧
        decryptBlk rc ru rm c =
          .ok (c.setBlk (BitVec.ofNat 256 (decryptLoop c.privAt 256 (c.num rc * c.num ru % c.num rm) 0)))) := by
  obtain ⟨hz, hk⟩ | ⟨hu, hm, hk⟩ := c.keyPair_cases ru rm
  · exact .inl ⟨hz, by simp only [decryptBlk, hk]⟩
  · exact .inr ⟨hu, hm, by simp only [decryptBlk, hk]⟩

end Computations

/-! ## The frames of the completed commands -/

section Frames

variable (s : State)

theorem completed_setReg (d : Reg) (v : Big) :
    Completed { reg := fun r => r == d } s (s.withCore (s.core.setReg d v).complete) := by
  constructor <;> simp +contextual

theorem completed_setReg_setCf (d : Reg) (v : Big) (b : Bool) :
    Completed { reg := fun r => r == d, cf := true } s (s.withCore ((s.core.setReg d v).setCf b).complete) := by
  constructor <;> simp +contextual

theorem completed_setReg_setCf_setVf (d : Reg) (v : Big) (b b' : Bool) :
    Completed { reg := fun r => r == d, cf := true, vf := true } s
      (s.withCore (((s.core.setReg d v).setCf b).setVf b').complete) := by
  constructor <;> simp +contextual

theorem completed_dropDin_setReg (n : Nat) (d : Reg) (v : Big) :
    Completed { reg := fun r => r == d, din := true } s (s.withCore ((s.core.dropDin n).setReg d v).complete) := by
  constructor <;> simp +contextual

theorem completed_pushDout (bs : List Byte) :
    Completed { dout := true } s (s.withCore (s.core.pushDout bs).complete) := by
  constructor <;> simp

theorem completed_setSlot (k : Bank) (i : Slot) (v : Big) :
    Completed { slot := fun k' i' => k' == k && i' == i } s (s.withCore (s.core.setSlot k i v).complete) := by
  constructor
  case slot =>
    intro k' i' hne
    have hne : k' ≠ k ∨ i' ≠ i := by simpa [imp_iff_not_or] using hne
    exact s.core.slot_setSlot_of_ne hne v
  all_goals simp

theorem completed_setKpub (v : Vector Big 256) :
    Completed { slot := fun k _ => k == .pub } s (s.withCore (s.core.setKpub v).complete) := by
  constructor
  case slot =>
    intro k i hne
    cases k with
    | priv => simp
    | pub => simp at hne
  all_goals simp

theorem completed_setBlk (v : Block) :
    Completed { blk := true } s (s.withCore (s.core.setBlk v).complete) := by
  constructor <;> simp

theorem completed_dropDin_setBlk (n : Nat) (v : Block) :
    Completed { blk := true, din := true } s (s.withCore ((s.core.dropDin n).setBlk v).complete) := by
  constructor <;> simp

theorem completed_setCmp (v : BitVec 2) :
    Completed { cmp := true } s (s.withCore (s.core.setCmp v).complete) := by
  constructor <;> simp

theorem completed_setZf (b : Bool) :
    Completed { zf := true } s (s.withCore (s.core.setZf b).complete) := by
  constructor <;> simp

theorem completed_setDin_setDout (bs bs' : List Byte) :
    Completed { din := true, dout := true } s (s.withCore ((s.core.setDin bs).setDout bs').complete) := by
  constructor <;> simp

theorem completed_clearSticky :
    Completed { sticky := true } s (s.withCore s.core.clearSticky.complete) := by
  constructor <;> simp

end Frames

/-! ## How a command ends -/

/-- The components each command writes when it completes (R29, R120 to R181). -/
def writesOf : Instr → Writes
  | .mov d _ => { reg := fun r => r == d }
  | .ldi d _ => { reg := fun r => r == d }
  | .load d => { reg := fun r => r == d, din := true }
  | .store _ => { dout := true }
  | .kld d _ _ => { reg := fun r => r == d }
  | .kst _ k i => { slot := fun k' i' => k' == k && i' == i }
  | .ldblk => { blk := true, din := true }
  | .stblk => { dout := true }
  | .add a _ => { reg := fun r => r == a, cf := true }
  | .sub a _ => { reg := fun r => r == a, cf := true }
  | .shl a _ => { reg := fun r => r == a }
  | .shr a _ => { reg := fun r => r == a }
  | .cmp _ _ => { cmp := true }
  | .tstz _ => { zf := true }
  | .reduce x _ => { reg := fun r => r == x }
  | .mulmod d _ _ _ => { reg := fun r => r == d }
  | .gcd d _ _ => { reg := fun r => r == d }
  | .modinv d _ _ => { reg := fun r => r == d }
  | .valsi d => { reg := fun r => r == d, cf := true, vf := true }
  | .derive _ _ => { slot := fun k _ => k == .pub }
  | .encrypt d => { reg := fun r => r == d, cf := true }
  | .decrypt _ _ _ => { blk := true }
  | .flush => { din := true, dout := true }
  | .clre => { sticky := true }

/-- Only CLRE writes the sticky bits when it completes (R180; log 9). -/
theorem writesOf_sticky_of_ne {i : Instr} (h : i ≠ .clre) : (writesOf i).sticky = false := by
  cases i with
  | clre => exact absurd rfl h
  | _ => rfl

/-- An outcome the command may have: a next state, in which either it has completed and written its own components at
most, or one of its own errors has been raised (R11, R220, R221). -/
def EndsWithin (i : Instr) (s : State) (o : Host.Outcome State Fault Refusal) : Prop :=
  ∃ t, o = .next t ∧ (Completed (writesOf i) s t ∨ ∃ e : CmdError, e.code ∈ errorCodes i ∧ t = s.raised e.code)

theorem EndsWithin.of_ok {i : Instr} {s : State} {c : CoreState}
    (h : Completed (writesOf i) s (s.withCore c.complete)) : EndsWithin i s (conclude s (.ok c)) :=
  ⟨_, rfl, .inl h⟩

theorem EndsWithin.of_error {i : Instr} {s : State} {e : CmdError} (h : e.code ∈ errorCodes i) :
    EndsWithin i s (conclude s (.error e)) :=
  ⟨_, rfl, .inr ⟨e, h, rfl⟩⟩

section Raising

variable (s : State)

theorem execLoad_endsWithin (d : Reg) : EndsWithin (.load d) s (execLoad d s) := by
  unfold execLoad
  obtain ⟨_, h⟩ | ⟨_, _, h⟩ | ⟨_, _, h⟩ := loadRecord_cases s.core d <;> rw [h]
  · exact .of_error (by simp [errorCodes, CmdError.code])
  · exact .of_error (by simp [errorCodes, CmdError.code])
  · exact .of_ok (completed_dropDin_setReg s 132 d _)

/-- STORE and STBLK alike: SHORT_WRITE is their one error, DOUT the one thing they write (R123, R127). -/
theorem doutOperand_endsWithin {i : Instr} (hw : writesOf i = { dout := true }) (he : errorCodes i = [0x03])
    (bs : List Byte) : EndsWithin i s (conclude s (s.core.doutOperand bs)) := by
  obtain ⟨_, h⟩ | ⟨_, h⟩ := s.core.doutOperand_cases bs <;> rw [h]
  · exact .of_error (by simp [he, CmdError.code])
  · exact .of_ok (hw ▸ completed_pushDout s bs)

theorem execLdblk_endsWithin : EndsWithin .ldblk s (execLdblk s) := by
  unfold execLdblk
  obtain ⟨_, h⟩ | ⟨_, h⟩ := loadBlock_cases s.core <;> rw [h]
  · exact .of_error (by simp [errorCodes, CmdError.code])
  · exact .of_ok (completed_dropDin_setBlk s 32 _)

theorem execReduce_endsWithin (x n : Reg) : EndsWithin (.reduce x n) s (execReduce x n s) := by
  unfold execReduce
  obtain ⟨_, h⟩ | ⟨_, h⟩ := reduceReg_cases s.core x n <;> rw [h]
  · exact .of_error (by simp [errorCodes, CmdError.code])
  · exact .of_ok (completed_setReg s x _)

theorem execMulmod_endsWithin (d a b n : Reg) : EndsWithin (.mulmod d a b n) s (execMulmod d a b n s) := by
  unfold execMulmod
  obtain ⟨_, h⟩ | ⟨_, h⟩ := mulmodReg_cases s.core d a b n <;> rw [h]
  · exact .of_error (by simp [errorCodes, CmdError.code])
  · exact .of_ok (completed_setReg s d _)

theorem execModinv_endsWithin (d v m : Reg) : EndsWithin (.modinv d v m) s (execModinv d v m s) := by
  unfold execModinv
  obtain ⟨_, h⟩ | ⟨_, _, h⟩ | ⟨_, _, h⟩ := modinvReg_cases s.core d v m <;> rw [h]
  · exact .of_error (by simp [errorCodes, CmdError.code])
  · exact .of_error (by simp [errorCodes, CmdError.code])
  · exact .of_ok (completed_setReg s d _)

theorem execDerive_endsWithin (v m : Reg) : EndsWithin (.derive v m) s (execDerive v m s) := by
  unfold execDerive
  obtain ⟨_, h⟩ | ⟨_, h⟩ := derivePub_cases s.core v m <;> rw [h]
  · exact .of_error (by simp [errorCodes, CmdError.code])
  · exact .of_ok (completed_setKpub s _)

theorem execDecrypt_endsWithin (c u m : Reg) : EndsWithin (.decrypt c u m) s (execDecrypt c u m s) := by
  unfold execDecrypt
  obtain ⟨_, h⟩ | ⟨_, _, h⟩ := decryptBlk_cases s.core c u m <;> rw [h]
  · exact .of_error (by simp [errorCodes, CmdError.code])
  · exact .of_ok (completed_setBlk s _)

end Raising

/-- Every command, from every state, ends within its own writes and its own error codes. -/
theorem exec_endsWithin (i : Instr) (s : State) : EndsWithin i s (exec i s) := by
  cases i with
  | mov d a => exact .of_ok (completed_setReg s d _)
  | ldi d imm => exact .of_ok (completed_setReg s d _)
  | load d => exact execLoad_endsWithin s d
  | store a => exact doutOperand_endsWithin s rfl rfl _
  | kld d k i => exact .of_ok (completed_setReg s d _)
  | kst a k i => exact .of_ok (completed_setSlot s k i _)
  | ldblk => exact execLdblk_endsWithin s
  | stblk => exact doutOperand_endsWithin s rfl rfl _
  | add a b => exact .of_ok (completed_setReg_setCf s a _ _)
  | sub a b => exact .of_ok (completed_setReg_setCf s a _ _)
  | shl a sh => exact .of_ok (completed_setReg s a _)
  | shr a sh => exact .of_ok (completed_setReg s a _)
  | cmp a b => exact .of_ok (completed_setCmp s _)
  | tstz a => exact .of_ok (completed_setZf s _)
  | reduce x n => exact execReduce_endsWithin s x n
  | mulmod d a b n => exact execMulmod_endsWithin s d a b n
  | gcd d a b => exact .of_ok (completed_setReg s d _)
  | modinv d v m => exact execModinv_endsWithin s d v m
  | valsi d => exact .of_ok (completed_setReg_setCf_setVf s d _ _ _)
  | derive v m => exact execDerive_endsWithin s v m
  | encrypt d => exact .of_ok (completed_setReg_setCf s d _ _)
  | decrypt c u m => exact execDecrypt_endsWithin s c u m
  | flush => exact .of_ok (completed_setDin_setDout s [] [])
  | clre => exact .of_ok (completed_clearSticky s)

/-- What a command's next state is: completed within its writes, or the state before with one of its errors raised. -/
theorem exec_next {i : Instr} {s t : State} (h : exec i s = .next t) :
    Completed (writesOf i) s t ∨ ∃ e : CmdError, e.code ∈ errorCodes i ∧ t = s.raised e.code := by
  obtain ⟨t', ht', hends⟩ := exec_endsWithin i s
  cases h.symm.trans ht'
  exact hends

end Sys2Proof.Machine
end

section
/-! PROOF. The statements of 00_scope.md: errors and their codes over all commands (R11, R15), and the idle step (R14). -/

open Sys2Proof Sys2Proof.Machine

/-- Settles O13: of the two ways a command ends, completing has RC = 0 and keeps ESTICKY by the command's frame, and
raising has a nonzero code and changes nothing but RC and ESTICKY. -/
theorem errorChangesNothingElse : Obligations.ErrorChangesNothingElse := by
  intro i s t h
  obtain hdone | ⟨e, -, rfl⟩ := exec_next h
  · exact ⟨fun hrc => absurd hdone.rc hrc, fun _ hi => hdone.esticky (writesOf_sticky_of_ne hi)⟩
  · exact ⟨fun _ => rfl, fun hrc => absurd hrc e.code_ne_zero⟩

/-- Settles O14: every command ends, with RC = 0 when it completes and with one of its own codes when it raises. -/
theorem commandsRaiseTheirCodesOnly : Obligations.CommandsRaiseTheirCodesOnly := by
  intro i s
  obtain ⟨t, ht, hdone | ⟨e, he, rfl⟩⟩ := exec_endsWithin i s
  · exact ⟨t, ht, .inl hdone.rc⟩
  · exact ⟨_, ht, .inr he⟩

/-- Settles O5: of the things a step can do, only waiting has an empty queue. -/
theorem idleStepWaits : Obligations.IdleStepWaits := by
  intro s hidle
  obtain ⟨-, hstep⟩ | ⟨a, rest, hpending, -⟩ := step_cases s
  · exact hstep
  · rw [hidle] at hpending
    cases hpending

end

section
/-! PROOF. What one access of the host window does, as a step (R34, R50, R63), and what the words it reads hold (R30,
R36). -/

namespace Sys2Proof.Machine

/-! ## Aligned accesses of the window, as steps -/

section Accesses

variable {s : State} {rest : List HostAction} {off : Nat}

/-- An aligned 32-bit access inside the window is an input of the model (R52, U8). -/
theorem accessRefusal_eq_none (halign : off % 4 = 0) (hin : off < 32) : accessRefusal off 4 = none := by
  simp [accessRefusal, halign, hin]

/-- A read of the window: what `portRead` returns is appended to the replies, what it leaves is the CORE. -/
theorem step_read (halign : off % 4 = 0) (hin : off < 32) (hp : s.host.pending = .read off 4 :: rest) :
    step s = .next { core := (portRead s.core (windowReg off)).2,
                     host := { pending := rest,
                               replies := s.host.replies ++ [(portRead s.core (windowReg off)).1] } } := by
  simp [step, fetch, hp, serve, accessRefusal_eq_none halign hin, State.setPending, State.withCore, State.reply]

/-- A write of the window: to CMD it runs the word, to DIN it pushes a byte, to any other register it is ignored. -/
theorem step_write (halign : off % 4 = 0) (hin : off < 32) {v : Word} (hp : s.host.pending = .write off 4 v :: rest) :
    step s = if windowReg off = .cmd then runWord v (s.setPending rest)
      else if windowReg off = .din then .next ((s.setPending rest).withCore (writeDin s.core v))
      else .next (s.setPending rest) := by
  have hserve : fetch s = portWrite (s.setPending rest) v (windowReg off) := by
    simp [fetch, hp, serve, accessRefusal_eq_none halign hin]
  cases hreg : windowReg off <;> simp [step, hserve, hreg, portWrite]

end Accesses

/-- A word that decodes is run as its command (R80). -/
theorem runWord_of_decode {w : Word} {i : Instr} (h : decode w = .ok i) (s : State) : runWord w s = exec i s := by
  simp [runWord, h]

/-- A count that 32 bits hold reads as itself (R36). -/
theorem countWord_toNat {n : Nat} (h : n < 2 ^ 32) (long : Nat → Word) : (countWord n long).toNat = n := by
  rw [countWord, if_pos h, BitVec.toNat_ofNat, Nat.mod_eq_of_lt h]

/-! ## The fields of STATUS (R30) -/

section Status

variable (c : CoreState)

/-- Bit k of STATUS is the bit of the field whose place k falls in. -/
theorem statusWord_getLsbD (k : Nat) : (statusWord c).getLsbD k =
    if k < 1 then (BitVec.ofBool c.cf).getLsbD k
    else if k < 2 then (BitVec.ofBool c.zf).getLsbD (k - 1)
    else if k < 4 then c.cmp.getLsbD (k - 2)
    else if k < 5 then (BitVec.ofBool c.vf).getLsbD (k - 4)
    else if k < 8 then false
    else if k < 16 then c.rc.getLsbD (k - 8)
    else if k < 17 then (BitVec.ofBool c.esticky).getLsbD (k - 16)
    else if k < 18 then (BitVec.ofBool c.inovf).getLsbD (k - 17)
    else if k < 19 then (BitVec.ofBool c.outunf).getLsbD (k - 18)
    else false := by
  have hsub (a n : Nat) (hn : 0 < n) : k - a < n ↔ k < a + n := by omega
  simp only [statusWord, BitVec.getLsbD_append, BitVec.getLsbD_zero]
  simp only [Nat.sub_sub, hsub, Nat.reduceAdd, Nat.reduceLT]

theorem statusWord_cf : (statusWord c).getLsbD 0 = c.cf := by
  rw [statusWord_getLsbD]; simp

theorem statusWord_zf : (statusWord c).getLsbD 1 = c.zf := by
  rw [statusWord_getLsbD]; simp

theorem statusWord_cmp : (statusWord c).extractLsb' 2 2 = c.cmp := by
  ext i hi
  rw [BitVec.getElem_extractLsb', statusWord_getLsbD]
  simp (disch := omega) [if_pos, if_neg]

theorem statusWord_vf : (statusWord c).getLsbD 4 = c.vf := by
  rw [statusWord_getLsbD]; simp

theorem statusWord_low_zeros : (statusWord c).extractLsb' 5 3 = 0 := by
  ext i hi
  rw [BitVec.getElem_extractLsb', statusWord_getLsbD]
  simp (disch := omega) [if_pos, if_neg]

theorem statusWord_rc : (statusWord c).extractLsb' 8 8 = c.rc := by
  ext i hi
  rw [BitVec.getElem_extractLsb', statusWord_getLsbD]
  simp (disch := omega) [if_pos, if_neg]

theorem statusWord_esticky : (statusWord c).getLsbD 16 = c.esticky := by
  rw [statusWord_getLsbD]; simp

theorem statusWord_inovf : (statusWord c).getLsbD 17 = c.inovf := by
  rw [statusWord_getLsbD]; simp

theorem statusWord_outunf : (statusWord c).getLsbD 18 = c.outunf := by
  rw [statusWord_getLsbD]; simp

theorem statusWord_high_zeros : (statusWord c).extractLsb' 19 13 = 0 := by
  ext i hi
  rw [BitVec.getElem_extractLsb', statusWord_getLsbD]
  simp (disch := omega) [if_neg]

end Status

end Sys2Proof.Machine
end

section
/-! PROOF. Which commands write a flag or a FIFO, and that whatever a step does, the CORE stays legal (R27, R29, R31, R41,
R42, R61). -/

namespace Sys2Proof.Machine

/-! ## Which commands write what -/

section Writers

variable {i : Instr}

theorem writesOf_cf (h : (writesOf i).cf = true) :
    (∃ a b, i = .add a b) ∨ (∃ a b, i = .sub a b) ∨ (∃ d, i = .valsi d) ∨ ∃ d, i = .encrypt d := by
  cases i with
  | add a b => exact .inl ⟨a, b, rfl⟩
  | sub a b => exact .inr (.inl ⟨a, b, rfl⟩)
  | valsi d => exact .inr (.inr (.inl ⟨d, rfl⟩))
  | encrypt d => exact .inr (.inr (.inr ⟨d, rfl⟩))
  | _ => cases h

theorem writesOf_zf (h : (writesOf i).zf = true) : ∃ a, i = .tstz a := by
  cases i with
  | tstz a => exact ⟨a, rfl⟩
  | _ => cases h

theorem writesOf_cmp (h : (writesOf i).cmp = true) : ∃ a b, i = .cmp a b := by
  cases i with
  | cmp a b => exact ⟨a, b, rfl⟩
  | _ => cases h

theorem writesOf_vf (h : (writesOf i).vf = true) : ∃ d, i = .valsi d := by
  cases i with
  | valsi d => exact ⟨d, rfl⟩
  | _ => cases h

theorem writesOf_din (h : (writesOf i).din = true) : (∃ d, i = .load d) ∨ i = .ldblk ∨ i = .flush := by
  cases i with
  | load d => exact .inl ⟨d, rfl⟩
  | ldblk => exact .inr (.inl rfl)
  | flush => exact .inr (.inr rfl)
  | _ => cases h

theorem writesOf_dout (h : (writesOf i).dout = true) : (∃ a, i = .store a) ∨ i = .stblk ∨ i = .flush := by
  cases i with
  | store a => exact .inl ⟨a, rfl⟩
  | stblk => exact .inr (.inl rfl)
  | flush => exact .inr (.inr rfl)
  | _ => cases h

end Writers

/-! ## What the computations leave in the FIFOs -/

section Fifos

variable {c c' : CoreState}

theorem loadRecord_din {d : Reg} (h : loadRecord d c = .ok c') : c'.din = c.din.drop 132 := by
  obtain ⟨-, he⟩ | ⟨-, -, he⟩ | ⟨-, -, he⟩ := loadRecord_cases c d <;> cases he.symm.trans h
  simp

theorem loadBlock_din (h : loadBlock c = .ok c') : c'.din = c.din.drop 32 := by
  obtain ⟨-, he⟩ | ⟨-, he⟩ := loadBlock_cases c <;> cases he.symm.trans h
  simp

/-- What is appended to DOUT fits (R61). -/
theorem doutOperand_dout_fits {bs : List Byte} (hfits : c.dout.length ≤ Config.doutDepth)
    (h : c.doutOperand bs = .ok c') : c'.dout.length ≤ Config.doutDepth := by
  obtain ⟨-, he⟩ | ⟨hroom, he⟩ := c.doutOperand_cases bs <;> cases he.symm.trans h
  rw [CoreState.pushDout_dout, List.length_append]
  omega

end Fifos

/-! ## Each clause of legality, through a command -/

section Clauses

variable {i : Instr} {s t : State}

/-- RC is 0 or a result code after every command (R11, R31). -/
theorem exec_rc_legal (h : exec i s = .next t) : t.core.rc.toNat ≤ 7 := by
  obtain hdone | ⟨e, -, rfl⟩ := exec_next h
  · rw [hdone.rc]; decide
  · exact e.code_range.2

/-- The encoding of CMP has no value 0b10 (R27). -/
theorem compareCode_ne (A B : Nat) : compareCode A B ≠ 0b10 := by
  unfold compareCode
  split
  · decide
  · split <;> decide

theorem exec_cmp_legal (hs : s.core.cmp ≠ 0b10) (h : exec i s = .next t) : t.core.cmp ≠ 0b10 := by
  obtain hdone | ⟨e, -, rfl⟩ := exec_next h
  · cases hw : (writesOf i).cmp with
    | false => rw [hdone.cmp hw]; exact hs
    | true =>
      obtain ⟨a, b, rfl⟩ := writesOf_cmp hw
      cases h
      exact compareCode_ne _ _
  · exact hs

/-- A command that takes bytes from DIN leaves no more there. -/
theorem conclude_din_length_le {r : Except CmdError CoreState} (n : Nat)
    (hr : ∀ c, r = .ok c → c.din = s.core.din.drop n) (h : conclude s r = .next t) :
    t.core.din.length ≤ s.core.din.length := by
  obtain ⟨-, ⟨c, hc, ht⟩ | ⟨e, -, ht⟩⟩ := conclude_next h
  · simp [ht, hr c hc]
  · simp [ht]

/-- No command appends to DIN: only the host does (R58). -/
theorem exec_din_length_le (h : exec i s = .next t) : t.core.din.length ≤ s.core.din.length := by
  obtain hdone | ⟨e, -, rfl⟩ := exec_next h
  · cases hw : (writesOf i).din with
    | false => rw [hdone.din hw]
    | true =>
      obtain ⟨d, rfl⟩ | rfl | rfl := writesOf_din hw
      · exact conclude_din_length_le 132 (fun _ => loadRecord_din) h
      · exact conclude_din_length_le 32 (fun _ => loadBlock_din) h
      · cases h; exact Nat.zero_le _
  · exact le_rfl

/-- A command that appends to DOUT leaves it within its capacity. -/
theorem conclude_doutOperand_fits {bs : List Byte} (hs : s.core.dout.length ≤ Config.doutDepth)
    (h : conclude s (s.core.doutOperand bs) = .next t) : t.core.dout.length ≤ Config.doutDepth := by
  obtain ⟨-, ⟨c, hc, ht⟩ | ⟨e, -, ht⟩⟩ := conclude_next h
  · have hfits := doutOperand_dout_fits hs hc
    rw [ht]
    exact hfits
  · rw [ht]
    exact hs

theorem exec_dout_fits (hs : s.core.dout.length ≤ Config.doutDepth) (h : exec i s = .next t) :
    t.core.dout.length ≤ Config.doutDepth := by
  obtain hdone | ⟨e, -, rfl⟩ := exec_next h
  · cases hw : (writesOf i).dout with
    | false => rw [hdone.dout hw]; exact hs
    | true =>
      obtain ⟨a, rfl⟩ | rfl | rfl := writesOf_dout hw
      · exact conclude_doutOperand_fits hs h
      · exact conclude_doutOperand_fits hs h
      · cases h; exact Nat.zero_le _
  · exact hs

end Clauses

/-! ## Legality through everything a step can do -/

section Legality

variable {s t : State}

theorem exec_keeps_legal {i : Instr} (hs : s.Legal) (h : exec i s = .next t) : t.Legal where
  rc_legal := exec_rc_legal h
  cmp_legal := exec_cmp_legal hs.cmp_legal h
  din_fits := (exec_din_length_le h).trans hs.din_fits
  dout_fits := exec_dout_fits hs.dout_fits h

/-- Raising an error writes a result code and leaves the rest of what legality is about (R220). -/
theorem raise_keeps_legal {c : CoreState} (hc : c.Legal) (e : CmdError) : (c.raise e).Legal where
  rc_legal := e.code_range.2
  cmp_legal := hc.cmp_legal
  din_fits := hc.din_fits
  dout_fits := hc.dout_fits

theorem runWord_keeps_legal {w : Word} (hs : s.Legal) (h : runWord w s = .next t) : t.Legal := by
  cases hw : decode w with
  | ok i => exact exec_keeps_legal hs (runWord_of_decode hw s ▸ h)
  | error e =>
    have hraise : runWord w s = .next (s.withCore (s.core.raise .illegalCmd)) := by
      simp [runWord, hw, illegalCommand]
    cases hraise.symm.trans h
    exact raise_keeps_legal hs _

theorem reset_legal : CoreState.reset.Legal where
  rc_legal := by decide
  cmp_legal := by decide
  din_fits := Nat.zero_le _
  dout_fits := Nat.zero_le _

/-- Popping DOUT makes it shorter; nothing else that legality is about changes (R59). -/
theorem readDout_keeps_legal {c : CoreState} (hc : c.Legal) : (readDout c).2.Legal := by
  unfold readDout
  split
  next => exact { hc with }
  next b bs hdout =>
    have hlen : bs.length ≤ c.dout.length := by simp [hdout]
    exact { hc with dout_fits := hlen.trans hc.dout_fits }

/-- A byte is appended to DIN only while there is room (R58). -/
theorem writeDin_keeps_legal {c : CoreState} (hc : c.Legal) (v : Word) : (writeDin c v).Legal := by
  unfold writeDin
  split
  next hroom => exact { hc with din_fits := by simpa using hroom }
  next => exact { hc with }

theorem serve_keeps_legal {a : HostAction} (hs : s.Legal) (h : serve a s = .served t) : t.Legal := by
  unfold State.Legal
  obtain hc | hc | hc | ⟨v, hc⟩ := serve_served h <;> rw [hc]
  · exact reset_legal
  · exact hs
  · exact readDout_keeps_legal hs
  · exact writeDin_keeps_legal hs v

end Legality

end Sys2Proof.Machine
end

section
/-! PROOF. The statements of 10_state.md: reset and legality (R27, R31, R41, R42, R46), running a command word (R34, R80),
the flags (R29), and reading STATUS, ID and the counts (R30, R33, R36). -/

open Sys2Proof Sys2Proof.Machine

/-- Settles O3: a step waits, serves an access, refuses one or runs a command word, and each that answers a next state
keeps the CORE legal. -/
theorem stepKeepsLegal : Obligations.StepKeepsLegal := by
  intro s t hs h
  obtain ⟨-, hstep⟩ | ⟨a, rest, -, ⟨t', hserve, hstep⟩ | ⟨r, -, hstep⟩ | ⟨w, -, hstep⟩⟩ := step_cases s
  · cases hstep.symm.trans h
    exact hs
  · cases hstep.symm.trans h
    exact serve_keeps_legal (s := s.setPending rest) hs hserve
  · cases hstep.symm.trans h
  · exact runWord_keeps_legal (s := s.setPending rest) hs (hstep.symm.trans h)

/-- Settles O15: a raising command changes no flag, and a completed one changes a flag only if it writes it. -/
theorem flagsWrittenByTheirCommandsOnly : Obligations.FlagsWrittenByTheirCommandsOnly := by
  intro i s t h
  obtain hdone | ⟨e, -, rfl⟩ := exec_next h
  · exact ⟨fun hne => writesOf_cf (Bool.of_not_eq_false (mt hdone.cf hne)),
      fun hne => writesOf_zf (Bool.of_not_eq_false (mt hdone.zf hne)),
      fun hne => writesOf_cmp (Bool.of_not_eq_false (mt hdone.cmp hne)),
      fun hne => writesOf_vf (Bool.of_not_eq_false (mt hdone.vf hne)),
      fun hrc => absurd hdone.rc hrc⟩
  · exact ⟨fun hne => absurd rfl hne, fun hne => absurd rfl hne, fun hne => absurd rfl hne, fun hne => absurd rfl hne,
      fun _ => ⟨rfl, rfl, rfl, rfl⟩⟩

/-- Settles O1: each component is its reset value; the registers and the slots are those of constant vectors. -/
theorem resetState : Obligations.ResetState := by
  have hreg (r : Reg) : State.reset.core.reg r = 0 := Vector.getElem_replicate r.isLt
  have hslot (k : Bank) (i : Slot) : State.reset.core.slot k i = 0 := by
    cases k <;> exact Vector.getElem_replicate i.isLt
  exact ⟨hreg, hslot, rfl, rfl, rfl, rfl, rfl, rfl, rfl, rfl, rfl, rfl, rfl⟩

/-- Settles O2: RC and CMP are 0 after reset and both FIFOs are empty. -/
theorem resetLegal : Obligations.ResetLegal := reset_legal

/-- Settles O4: offset 0x04 is CMD, a write to which runs its word, and a word that decodes runs as its command. -/
theorem stepRunsDecodedCommand : Obligations.StepRunsDecodedCommand := by
  intro s rest w i hp hdecode _
  calc step s = runWord w (s.setPending rest) := step_write (off := 0x04) rfl (by decide) hp
    _ = exec i (s.setPending rest) := runWord_of_decode hdecode _

/-- Settles O51: a read of offset 0x08 is a read of STATUS, whose word has each field in its place. -/
theorem statusWindow : Obligations.StatusWindow := by
  refine ⟨fun s rest hp => ?_, fun s rest v hp => ?_, by decide⟩
  · have hstep := step_read (off := 0x08) rfl (by decide) hp
    exact ⟨statusWord s.core, hstep, statusWord_cf _, statusWord_zf _, statusWord_cmp _, statusWord_vf _,
      statusWord_low_zeros _, statusWord_rc _, statusWord_esticky _, statusWord_inovf _, statusWord_outunf _,
      statusWord_high_zeros _⟩
  · exact step_write (off := 0x08) rfl (by decide) hp

/-- Settles O54: offsets 0x00, 0x14 and 0x18 are ID, DINCNT and DOUTCNT, and reading them leaves the CORE. -/
theorem idAndCounts : Obligations.IdAndCounts := by
  intro s rest off hp
  refine ⟨?_, ?_, ?_⟩
  · rintro rfl
    exact step_read rfl (by decide) hp
  · rintro rfl hlen
    exact ⟨_, countWord_toNat hlen Config.dinLongCount, step_read rfl (by decide) hp⟩
  · rintro rfl hlen
    exact ⟨_, countWord_toNat hlen Config.doutLongCount, step_read rfl (by decide) hp⟩

end

section
/-! PROOF. What the ports of the host window do, where the window stands, which accesses are refused, and the block a
record's first bytes hold (R50, R52, R53, R58, R59, U8). -/

namespace Sys2Proof.Machine

/-! ## The FIFO ports -/

section Ports

variable {c : CoreState}

/-- A push into a DIN with room appends bits 7:0 (R58). -/
theorem writeDin_of_room (h : c.din.length < Config.dinDepth) (v : Word) :
    writeDin c v = c.setDin (c.din ++ [v.extractLsb' 0 8]) := by
  have hbyte : BitVec.ofNat 8 (v.toNat % 2 ^ 8) = v.extractLsb' 0 8 :=
    BitVec.eq_of_toNat_eq (by simp)
  rw [writeDin, if_pos h, hbyte]

/-- A push into a DIN without room loses the byte (R58; log 15). -/
theorem writeDin_of_full (h : Config.dinDepth ≤ c.din.length) (v : Word) : writeDin c v = c.markInovf := by
  rw [writeDin, if_neg (Nat.not_lt.2 h)]

/-- A pop of a nonempty DOUT returns its head byte, zero-extended (R59). -/
theorem readDout_of_cons {b : Byte} {bs : List Byte} (h : c.dout = b :: bs) :
    readDout c = (b.setWidth 32, c.setDout bs) := by
  simp [readDout, h, BitVec.ofNat_toNat]

/-- A pop of an empty DOUT returns 0 and is remembered in OUTUNF (R59). -/
theorem readDout_of_nil (h : c.dout = []) : readDout c = (0, c.markOutunf) := by
  rw [readDout, h]

end Ports

/-! ## Where the window stands -/

section Placement

variable {off : Nat}

/-- BASE is a multiple of 32, so the address and the offset have the same bits 4:2, which choose the register (R50). -/
theorem windowReg_of_address_bits {k : Nat} (h : (Config.base + off) / 4 % 8 = k) :
    windowReg off = windowReg (4 * k) := by
  have hbits : off / 4 % 8 = 4 * k / 4 % 8 := by
    rw [Config.base] at h
    omega
  rw [windowReg, windowReg, hbits]

theorem windowOffset_base_add (h : off < 32) : windowOffset (Config.base + off) = some off := by
  rw [windowOffset, if_pos ⟨Nat.le_add_right _ _, Nat.add_lt_add_left h _⟩, Nat.add_sub_cancel_left]

theorem windowOffset_of_outside {address : Nat} (h : address < Config.base ∨ Config.base + 32 ≤ address) :
    windowOffset address = none :=
  if_neg fun hin => by omega

/-- An aligned address has an aligned offset, since BASE is aligned. -/
theorem offset_aligned (h : (Config.base + off) % 4 = 0) : off % 4 = 0 := by
  rw [Config.base] at h
  omega

end Placement

/-! ## Which accesses are refused -/

/-- The action is a host access of this offset and width, in either direction. -/
def HostAction.Accesses (a : HostAction) (off n : Nat) : Prop := a = .read off n ∨ ∃ v, a = .write off n v

section Refusals

variable {a : HostAction} {off n : Nat} {s : State} {rest : List HostAction}

theorem accessRefusal_of_not_word (h : n ≠ 4) : accessRefusal off n = some .accessNotWord := if_pos h

theorem accessRefusal_of_misaligned (h : off % 4 ≠ 0) : accessRefusal off 4 = some .accessMisaligned := by
  simp [accessRefusal, h]

theorem accessRefusal_of_outside (halign : off % 4 = 0) (h : 32 ≤ off) :
    accessRefusal off 4 = some .accessOutsideWindow := by
  simp [accessRefusal, halign, h]

/-- A refused access refuses the step, whichever its direction. -/
theorem step_refused {r : Refusal} (ha : a.Accesses off n) (hp : s.host.pending = a :: rest)
    (hr : accessRefusal off n = some r) : step s = .refused r := by
  obtain rfl | ⟨v, rfl⟩ := ha <;> simp [step, fetch, hp, serve, hr]

/-- Running a word answers a next state, whether or not it is a command (R15, R80). -/
theorem runWord_next (w : Word) (s : State) : ∃ t, runWord w s = .next t := by
  cases hw : decode w with
  | ok i =>
    obtain ⟨t, ht, -⟩ := exec_endsWithin i s
    exact ⟨t, (runWord_of_decode hw s).trans ht⟩
  | error e => exact ⟨s.withCore (s.core.raise .illegalCmd), by simp [runWord, hw, illegalCommand]⟩

/-- An aligned 32-bit access of the window is served, whichever its direction (R50). -/
theorem step_served (ha : a.Accesses off 4) (hp : s.host.pending = a :: rest) (halign : off % 4 = 0) (hin : off < 32) :
    ∃ t, step s = .next t := by
  obtain rfl | ⟨v, rfl⟩ := ha
  · exact ⟨_, step_read halign hin hp⟩
  · rw [step_write halign hin hp]
    split
    · exact runWord_next v _
    · split <;> exact ⟨_, rfl⟩

end Refusals

/-! ## Bytes as a block -/

/-- The first bytes of a number's image are its shorter image (R55, R57). -/
theorem leBytes_take {m n : Nat} (h : m ≤ n) (v : Nat) : (leBytes n v).take m = leBytes m v := by
  rw [leBytes, leBytes, ← List.map_take, List.take_range, Nat.min_eq_left h]

/-- The first 32 bytes of a record are the low 256 bits of its value, as a block's image (R55, R57). -/
theorem blockValue_recordBytes (v : Big) (more : List Byte) :
    (blockValue ((recordBytes v ++ more).take 32)).toNat = v.toNat % 2 ^ 256 := by
  have hbytes : (recordBytes v ++ more).take 32 = leBytes 32 v.toNat := by
    rw [recordBytes, List.append_assoc, List.take_append_of_le_length (by simp), leBytes_take (by decide)]
  rw [hbytes, blockValue, leValue_leBytes, BitVec.toNat_ofNat, Nat.mod_mod]

/-- LDBLK with 32 bytes in DIN takes them as BLK (R126). -/
theorem exec_ldblk_of_length {s : State} (h : 32 ≤ s.core.din.length) :
    exec .ldblk s = .next (s.withCore ((s.core.dropDin 32).setBlk (blockValue (s.core.din.take 32))).complete) := by
  obtain ⟨hshort, -⟩ | ⟨-, hload⟩ := loadBlock_cases s.core
  · omega
  · exact congrArg (conclude s) hload

end Sys2Proof.Machine
end

section
/-! PROOF. The statements of 20_memory.md: a record read as a block (R53), the FIFO ports (R58, R59), and which accesses
of the host window are ignored (R51), refused (R52), or placed at which register (R50). -/

open Sys2Proof Sys2Proof.Machine

/-- Settles O27: a record has more than 32 bytes, so LDBLK takes the first 32, and they hold V mod 2^256. -/
theorem recordReadAsBlock : Obligations.RecordReadAsBlock := by
  intro s v more hdin
  have hlen : 32 ≤ s.core.din.length := by
    rw [hdin, List.length_append, recordBytes_length]
    omega
  refine ⟨_, exec_ldblk_of_length hlen, ?_, ?_, by simp⟩
  · rw [hdin]
    exact blockValue_recordBytes v more
  · calc s.core.din.drop 32 = (recordBytes v ++ more).drop 32 := by rw [hdin]
      _ = (recordBytes v).drop 32 ++ more := List.drop_append_of_le_length (by simp)

/-- Settles O56: each way an access can fail to be an aligned 32-bit access of the window has its refusal, and the
others are served. -/
theorem otherAccessesRefused : Obligations.OtherAccessesRefused := by
  intro s rest a off n ha hp
  refine ⟨fun hn => step_refused ha hp (accessRefusal_of_not_word hn), ?_, ?_, ?_⟩
  · rintro rfl hmis
    exact step_refused ha hp (accessRefusal_of_misaligned hmis)
  · rintro rfl halign hout
    exact step_refused ha hp (accessRefusal_of_outside halign hout)
  · rintro rfl halign hin
    exact step_served ha hp halign hin

/-- Settles O57: an address of the window is BASE plus its offset, which chooses the register the address bits choose
and is aligned when the address is. -/
theorem windowPlacement : Obligations.WindowPlacement := by
  intro address
  refine ⟨fun hlow hhigh => ?_, windowOffset_of_outside⟩
  obtain ⟨off, rfl⟩ := Nat.exists_eq_add_of_le hlow
  have hin : off < 32 := Nat.lt_of_add_lt_add_left hhigh
  exact ⟨off, windowOffset_base_add hin, rfl, windowReg_of_address_bits, windowReg_of_address_bits,
    windowReg_of_address_bits, windowReg_of_address_bits, windowReg_of_address_bits, windowReg_of_address_bits,
    windowReg_of_address_bits, windowReg_of_address_bits, fun halign _ _ => step_read (offset_aligned halign) hin,
    fun halign _ _ _ => step_write (offset_aligned halign) hin⟩

/-- Settles O52: offset 0x0C is DIN, where a write pushes a byte. -/
theorem dinPush : Obligations.DinPush := by
  intro s rest v hp
  have hstep : step s = .next ((s.setPending rest).withCore (writeDin s.core v)) :=
    step_write (off := 0x0C) rfl (by decide) hp
  refine ⟨fun hroom => ?_, fun hfull => ?_⟩
  · rw [hstep, writeDin_of_room hroom]
    rfl
  · rw [hstep, writeDin_of_full hfull.ge]
    rfl

/-- Settles O53: offset 0x10 is DOUT, where a read pops a byte. -/
theorem doutPop : Obligations.DoutPop := by
  intro s rest hp
  have hstep : step s = .next { core := (readDout s.core).2,
                                host := { pending := rest, replies := s.host.replies ++ [(readDout s.core).1] } } :=
    step_read (off := 0x10) rfl (by decide) hp
  refine ⟨fun b bs hdout => ?_, fun hdout => ?_⟩
  · rw [hstep, readDout_of_cons hdout]
    rfl
  · rw [hstep, readDout_of_nil hdout]
    rfl

/-- Settles O55: the offsets of the first list read 0 and leave the CORE; those of the second are neither CMD nor
DIN. -/
theorem wrongDirectionAccesses : Obligations.WrongDirectionAccesses := by
  refine ⟨fun s rest off hp hoff => ?_, fun s rest off v hp hoff => ?_⟩
  · fin_cases hoff <;> exact step_read rfl (by decide) hp
  · fin_cases hoff <;> exact step_write rfl (by decide) hp

end

section
/-! PROOF. Command words and the opcode table: what decoding reads at each opcode, that encoding and decoding undo each
other format by format, and the masks of the table as ranges of bits (R80 to R90). -/

namespace Sys2Proof

/-! ## The bits a format requires to be zero (R82) -/

/-- The highest of the bits a format requires to be zero (R82). -/
def Format.mbzHi : Format → Nat
  | .z => 23
  | .r1 => 19
  | .r2 => 15
  | .r3 => 11
  | .r4 => 7
  | .ri => 19
  | .rs => 19
  | .rk => 19

/-- The lowest of the bits a format requires to be zero (R82). -/
def Format.mbzLo : Format → Nat
  | .z => 0
  | .r1 => 0
  | .r2 => 0
  | .r3 => 0
  | .r4 => 0
  | .ri => 16
  | .rs => 10
  | .rk => 9

/-- A format's mask has exactly the bits of its range, all below the opcode (R82). -/
theorem Format.mbz_getLsbD (f : Format) (k : Nat) : f.mbz.getLsbD k = decide (f.mbzLo ≤ k ∧ k ≤ f.mbzHi) := by
  have hrange : f.mbzHi < 24 := by cases f <;> decide
  by_cases hk : k < 32
  · have hall : ∀ k : Fin 32, f.mbz.getLsbD k.val = decide (f.mbzLo ≤ k.val ∧ k.val ≤ f.mbzHi) := by
      cases f <;> decide
    exact hall ⟨k, hk⟩
  · rw [BitVec.getLsbD_of_ge _ _ (by omega)]
    exact (decide_eq_false (by omega)).symm

theorem bits_testBit (w : Word) (hi lo k : Nat) :
    (bits w hi lo).testBit k = (decide (k < hi - lo + 1) && w.getLsbD (lo + k)) := by
  rw [bits, Nat.testBit_mod_two_pow, Nat.testBit_div_two_pow, BitVec.testBit_toNat, Nat.add_comm k lo]

/-- A word ANDed with a format's mask is zero exactly when the bits of the format's range are (R82). -/
theorem Format.and_mbz_eq_zero_iff (f : Format) (w : Word) :
    w &&& f.mbz = 0 ↔ bits w f.mbzHi f.mbzLo = 0 := by
  have hrange : f.mbzLo ≤ f.mbzHi := by cases f <;> decide
  constructor
  · intro h
    refine Nat.eq_of_testBit_eq fun k => ?_
    have hbit : (w &&& f.mbz).getLsbD (f.mbzLo + k) = false := by simp [h]
    rw [BitVec.getLsbD_and, f.mbz_getLsbD] at hbit
    by_cases hk : k < f.mbzHi - f.mbzLo + 1
    · have hin : f.mbzLo ≤ f.mbzLo + k ∧ f.mbzLo + k ≤ f.mbzHi := by omega
      simpa [bits_testBit, hk, hin] using hbit
    · simp [bits_testBit, hk]
  · intro h
    refine BitVec.eq_of_getLsbD_eq fun k _ => ?_
    rw [BitVec.getLsbD_and, f.mbz_getLsbD]
    by_cases hin : f.mbzLo ≤ k ∧ k ≤ f.mbzHi
    · have hbit := bits_testBit w f.mbzHi f.mbzLo (k - f.mbzLo)
      rw [h, Nat.add_sub_cancel' hin.1] at hbit
      have hk : k - f.mbzLo < f.mbzHi - f.mbzLo + 1 := by omega
      simpa [hk, hin] using hbit.symm
    · simp [hin]

/-! ## The opcode table's rows (R83) -/

theorem opField_eq (w : Word) : opField w = w.toNat / 2 ^ 24 := by
  simp only [opField, bits]
  omega

theorem opField_testBit (w : Word) (k : Nat) : (opField w).testBit k = w.getLsbD (24 + k) := by
  rw [opField_eq, Nat.testBit_div_two_pow, BitVec.testBit_toNat, Nat.add_comm]

/-- The upper eight bits of a word are its opcode (R81). -/
theorem and_opcodeMask_toNat (w : Word) : (w &&& 0xFF000000).toNat = 2 ^ 24 * opField w := by
  have hmask : ∀ k : Fin 32, (0xFF000000 : Word).getLsbD k.val = decide (24 ≤ k.val) := by decide
  refine Nat.eq_of_testBit_eq fun k => ?_
  rw [BitVec.testBit_toNat, BitVec.getLsbD_and, Nat.testBit_two_pow_mul, opField_testBit]
  by_cases hk : k < 32
  · rw [hmask ⟨k, hk⟩]
    by_cases h24 : 24 ≤ k <;> simp [h24]
  · simp [BitVec.getLsbD_of_ge w k (by omega), BitVec.getLsbD_of_ge w (24 + (k - 24)) (by omega)]

/-- A word matches a row when its opcode is the row's and the bits the row's format requires to be zero are (R83). -/
theorem OpcodeRow.matchesWord_iff {row : OpcodeRow} (hop : row.op < 256) (w : Word) :
    row.matchesWord w = true ↔ opField w = row.op ∧ bits w row.format.mbzHi row.format.mbzLo = 0 := by
  have hlow : (w &&& row.format.mbz).toNat < 2 ^ 24 := by
    have hmbz : row.format.mbz.toNat < 2 ^ 24 := by cases row.format <;> decide
    exact Nat.and_le_right.trans_lt hmbz
  have hsplit : (w &&& (0xFF000000 ||| row.format.mbz)).toNat =
      2 ^ 24 * opField w + (w &&& row.format.mbz).toNat := by
    rw [BitVec.and_or_distrib_left, BitVec.toNat_or, and_opcodeMask_toNat, Nat.two_pow_add_eq_or_of_lt hlow]
  have hmatch : (BitVec.ofNat 32 (row.op * 2 ^ 24)).toNat = row.op * 2 ^ 24 := by
    rw [BitVec.toNat_ofNat]
    omega
  have hzero : (w &&& row.format.mbz) = 0 ↔ (w &&& row.format.mbz).toNat = 0 := BitVec.toNat_eq
  rw [OpcodeRow.matchesWord, beq_iff_eq, BitVec.toNat_eq, hsplit, hmatch, ← Format.and_mbz_eq_zero_iff, hzero]
  omega

/-- Each command's format (R83). -/
def Instr.format : Instr → Format
  | .mov _ _ => .r2
  | .ldi _ _ => .ri
  | .load _ => .r1
  | .store _ => .r1
  | .kld _ _ _ => .rk
  | .kst _ _ _ => .rk
  | .ldblk => .z
  | .stblk => .z
  | .add _ _ => .r2
  | .sub _ _ => .r2
  | .shl _ _ => .rs
  | .shr _ _ => .rs
  | .cmp _ _ => .r2
  | .tstz _ => .r1
  | .reduce _ _ => .r2
  | .mulmod _ _ _ _ => .r4
  | .gcd _ _ _ => .r3
  | .modinv _ _ _ => .r3
  | .valsi _ => .r1
  | .derive _ _ => .r2
  | .encrypt _ => .r1
  | .decrypt _ _ _ => .r3
  | .flush => .z
  | .clre => .z

/-- Every command has its row, with its opcode and its format (R83). -/
theorem Instr.exists_row (i : Instr) : ∃ row ∈ opcodeRows, row.op = i.opcode ∧ row.format = i.format := by
  cases i <;> simp [opcodeRows, Instr.opcode, Instr.format]

/-- One command of each name, in the order of the table's rows (R83). -/
def oneOfEach : List Instr :=
  [.mov 0 0, .ldi 0 0, .load 0, .store 0, .kld 0 .priv 0, .kst 0 .priv 0, .ldblk, .stblk, .add 0 0, .sub 0 0, .shl 0 0,
   .shr 0 0, .cmp 0 0, .tstz 0, .reduce 0 0, .mulmod 0 0 0 0, .gcd 0 0 0, .modinv 0 0 0, .valsi 0, .derive 0 0,
   .encrypt 0, .decrypt 0 0 0, .flush, .clre]

/-- Every row is some command's (R83). -/
theorem OpcodeRow.exists_instr {row : OpcodeRow} (h : row ∈ opcodeRows) :
    ∃ i : Instr, i.opcode = row.op ∧ i.format = row.format := by
  have hrows : opcodeRows.map (fun r => (r.op, r.format)) = oneOfEach.map fun i => (i.opcode, i.format) := by decide
  have hmem : (row.op, row.format) ∈ oneOfEach.map fun i => (i.opcode, i.format) :=
    hrows ▸ List.mem_map_of_mem h
  obtain ⟨i, -, hi⟩ := List.mem_map.1 hmem
  obtain ⟨hop, hformat⟩ := Prod.mk.inj hi
  exact ⟨i, hop, hformat⟩

theorem OpcodeRow.op_lt {row : OpcodeRow} (h : row ∈ opcodeRows) : row.op < 256 := by
  obtain ⟨i, hop, -⟩ := exists_instr h
  exact hop ▸ i.opcode_lt

/-- No two rows have the same opcode (R83). -/
theorem OpcodeRow.eq_of_op_eq : ∀ row ∈ opcodeRows, ∀ row' ∈ opcodeRows, row.op = row'.op → row = row' := by
  decide

/-! ## What decoding reads -/

/-- The command of the same name whose operands stand in the fields of a word (R81, R83). -/
def Instr.readFrom (w : Word) : Instr → Instr
  | .mov _ _ => .mov (f1Field w) (f2Field w)
  | .ldi _ _ => .ldi (f1Field w) (immField w)
  | .load _ => .load (f1Field w)
  | .store _ => .store (f1Field w)
  | .kld _ _ _ => .kld (f1Field w) (bankField w) (idxField w)
  | .kst _ _ _ => .kst (f1Field w) (bankField w) (idxField w)
  | .ldblk => .ldblk
  | .stblk => .stblk
  | .add _ _ => .add (f1Field w) (f2Field w)
  | .sub _ _ => .sub (f1Field w) (f2Field w)
  | .shl _ _ => .shl (f1Field w) (shField w)
  | .shr _ _ => .shr (f1Field w) (shField w)
  | .cmp _ _ => .cmp (f1Field w) (f2Field w)
  | .tstz _ => .tstz (f1Field w)
  | .reduce _ _ => .reduce (f1Field w) (f2Field w)
  | .mulmod _ _ _ _ => .mulmod (f1Field w) (f2Field w) (f3Field w) (f4Field w)
  | .gcd _ _ _ => .gcd (f1Field w) (f2Field w) (f3Field w)
  | .modinv _ _ _ => .modinv (f1Field w) (f2Field w) (f3Field w)
  | .valsi _ => .valsi (f1Field w)
  | .derive _ _ => .derive (f1Field w) (f2Field w)
  | .encrypt _ => .encrypt (f1Field w)
  | .decrypt _ _ _ => .decrypt (f1Field w) (f2Field w) (f3Field w)
  | .flush => .flush
  | .clre => .clre

theorem Instr.readFrom_opcode (w : Word) (i : Instr) : (i.readFrom w).opcode = i.opcode := by
  cases i <;> rfl

theorem Instr.readFrom_format (w : Word) (i : Instr) : (i.readFrom w).format = i.format := by
  cases i <;> rfl

theorem Instr.readFrom_readFrom (w : Word) (i : Instr) : (i.readFrom w).readFrom w = i.readFrom w := by
  cases i <;> rfl

/-- A word with a command's opcode decodes to that command, read from the word's fields, if the bits of the command's
format are zero (R80, R83). -/
theorem decode_of_opcode {w : Word} {i : Instr} (h : opField w = i.opcode) :
    decode w = ifZero w i.format.mbzHi i.format.mbzLo (i.readFrom w) := by
  cases i <;> (simp only [Instr.opcode] at h; simp only [decode, h]; rfl)

/-- A word with no command's opcode is rejected for it (R86). -/
theorem decode_of_reserved {w : Word} (h : ∀ i : Instr, opField w ≠ i.opcode) : decode w = .error .reservedOpcode := by
  have hne : ∀ i ∈ oneOfEach, opField w ≠ i.opcode := fun i _ => h i
  simp only [oneOfEach, List.forall_mem_cons, Instr.opcode] at hne
  unfold decode
  split
  case h_25 => rfl
  all_goals simp_all only [ne_eq, not_true_eq_false, false_and, and_false]

/-- The opcodes that are not reserved (R85). -/
theorem Instr.opcode_range (i : Instr) :
    (0x01 ≤ i.opcode ∧ i.opcode ≤ 0x08) ∨ (0x10 ≤ i.opcode ∧ i.opcode ≤ 0x15) ∨
      (0x20 ≤ i.opcode ∧ i.opcode ≤ 0x23) ∨ (0x30 ≤ i.opcode ∧ i.opcode ≤ 0x33) ∨
      (0x3E ≤ i.opcode ∧ i.opcode ≤ 0x3F) := by
  cases i <;> simp [Instr.opcode]

/-- A word decodes to a command exactly when it has the command's opcode, the bits the command's format requires to be
zero are, and the word's fields hold the command's operands (R80, R83). -/
theorem decode_eq_ok_iff {w : Word} {i : Instr} :
    decode w = .ok i ↔ opField w = i.opcode ∧ bits w i.format.mbzHi i.format.mbzLo = 0 ∧ i.readFrom w = i := by
  constructor
  · intro h
    by_cases hop : ∃ j : Instr, opField w = j.opcode
    · obtain ⟨j, hj⟩ := hop
      rw [decode_of_opcode hj, ifZero_ok] at h
      obtain ⟨hz, rfl⟩ := h
      rw [j.readFrom_opcode, j.readFrom_format]
      exact ⟨hj, hz, j.readFrom_readFrom w⟩
    · rw [decode_of_reserved (not_exists.1 hop)] at h
      cases h
  · rintro ⟨hop, hz, hread⟩
    rw [decode_of_opcode hop, ifZero_ok]
    exact ⟨hz, hread⟩

/-! ## Reading back what was encoded (R81, R90) -/

section Words

variable {op : Nat} (hop : op < 256) (a b c d : Reg)

include hop

theorem wordZ_reads : opField (wordR op 0 0 0 0) = op ∧ bits (wordR op 0 0 0 0) 23 0 = 0 := by
  simp [wordR_bits, hop]

theorem wordR1_reads :
    opField (wordR op a 0 0 0) = op ∧ bits (wordR op a 0 0 0) 19 0 = 0 ∧ f1Field (wordR op a 0 0 0) = a := by
  simp [f1Field, wordR_bits, hop]

theorem wordR2_reads :
    opField (wordR op a b 0 0) = op ∧ bits (wordR op a b 0 0) 15 0 = 0 ∧ f1Field (wordR op a b 0 0) = a ∧
      f2Field (wordR op a b 0 0) = b := by
  simp [f1Field, f2Field, wordR_bits, hop]

theorem wordR3_reads :
    opField (wordR op a b c 0) = op ∧ bits (wordR op a b c 0) 11 0 = 0 ∧ f1Field (wordR op a b c 0) = a ∧
      f2Field (wordR op a b c 0) = b ∧ f3Field (wordR op a b c 0) = c := by
  simp [f1Field, f2Field, f3Field, wordR_bits, hop]

theorem wordR4_reads :
    opField (wordR op a b c d) = op ∧ bits (wordR op a b c d) 7 0 = 0 ∧ f1Field (wordR op a b c d) = a ∧
      f2Field (wordR op a b c d) = b ∧ f3Field (wordR op a b c d) = c ∧ f4Field (wordR op a b c d) = d := by
  simp [f1Field, f2Field, f3Field, f4Field, wordR_bits, hop]

theorem wordI_reads {imm : Nat} (hi : immFits imm = true) :
    opField (wordI op a imm) = op ∧ bits (wordI op a imm) 19 16 = 0 ∧ f1Field (wordI op a imm) = a ∧
      immField (wordI op a imm) = imm := by
  simp [f1Field, wordI_bits hop a.isLt (of_decide_eq_true hi)]

theorem wordS_reads {sh : Nat} (hs : shamtFits sh = true) :
    opField (wordI op a sh) = op ∧ bits (wordI op a sh) 19 10 = 0 ∧ f1Field (wordI op a sh) = a ∧
      shField (wordI op a sh) = sh := by
  simp [f1Field, wordS_bits hop a.isLt (of_decide_eq_true hs)]

theorem wordK_reads (k : Bank) (i : Slot) :
    opField (wordK op a k.code i) = op ∧ bits (wordK op a k.code i) 19 9 = 0 ∧ f1Field (wordK op a k.code i) = a ∧
      bankField (wordK op a k.code i) = k ∧ idxField (wordK op a k.code i) = i := by
  have hbank : bankField (wordK op a k.code i) = k := bankField_eq (by simp [wordK_bits, hop, k.code_lt])
  simp [f1Field, idxField, hbank, wordK_bits, hop, k.code_lt]

end Words

/-- The word of a well-formed command has the command's opcode, zeros where its format requires them, and the command's
operands in its fields (R90). -/
theorem encode_reads {i : Instr} (hwf : i.wellFormed = true) :
    opField (encode i) = i.opcode ∧ bits (encode i) i.format.mbzHi i.format.mbzLo = 0 ∧
      i.readFrom (encode i) = i := by
  have hlt := i.opcode_lt
  cases i with
  | ldblk | stblk | flush | clre =>
    obtain ⟨hop, hz⟩ := wordZ_reads hlt
    exact ⟨hop, hz, rfl⟩
  | load a | store a | tstz a | valsi a | encrypt a =>
    obtain ⟨hop, hz, ha⟩ := wordR1_reads hlt a
    exact ⟨hop, hz, by simp only [encode, Instr.readFrom, ha]⟩
  | mov a b | add a b | sub a b | cmp a b | reduce a b | derive a b =>
    obtain ⟨hop, hz, ha, hb⟩ := wordR2_reads hlt a b
    exact ⟨hop, hz, by simp only [encode, Instr.readFrom, ha, hb]⟩
  | gcd a b c | modinv a b c | decrypt a b c =>
    obtain ⟨hop, hz, ha, hb, hc⟩ := wordR3_reads hlt a b c
    exact ⟨hop, hz, by simp only [encode, Instr.readFrom, ha, hb, hc]⟩
  | mulmod a b c d =>
    obtain ⟨hop, hz, ha, hb, hc, hd⟩ := wordR4_reads hlt a b c d
    exact ⟨hop, hz, by simp only [encode, Instr.readFrom, ha, hb, hc, hd]⟩
  | ldi a imm =>
    obtain ⟨hop, hz, ha, himm⟩ := wordI_reads hlt a hwf
    exact ⟨hop, hz, by simp only [encode, Instr.readFrom, ha, himm]⟩
  | shl a sh | shr a sh =>
    obtain ⟨hop, hz, ha, hsh⟩ := wordS_reads hlt a hwf
    exact ⟨hop, hz, by simp only [encode, Instr.readFrom, ha, hsh]⟩
  | kld a k slot | kst a k slot =>
    obtain ⟨hop, hz, ha, hk, hslot⟩ := wordK_reads hlt a k slot
    exact ⟨hop, hz, by simp only [encode, Instr.readFrom, ha, hk, hslot]⟩

/-! ## Writing again what was read (R81, R82) -/

/-- The operands read from a word's fields are ones a command word can hold (R84). -/
theorem Instr.readFrom_wellFormed (w : Word) (i : Instr) : (i.readFrom w).wellFormed = true := by
  have himm : immField w < 2 ^ 16 := Nat.mod_lt _ (by decide)
  have hsh : shField w < 2 ^ 10 := Nat.mod_lt _ (by decide)
  cases i with
  | ldi d imm => exact decide_eq_true himm
  | shl a sh | shr a sh => exact decide_eq_true hsh
  | _ => rfl

theorem bankField_code (w : Word) : (bankField w).code = bits w 8 8 := by
  have hbit : bits w 8 8 < 2 := Nat.mod_lt _ (by decide)
  unfold bankField
  split
  · simp [Bank.code, *]
  · simp only [Bank.code]
    omega

section Fields

variable {w : Word} {op : Nat} (hop : opField w = op)

include hop

theorem wordZ_fields (hz : bits w 23 0 = 0) : wordR op 0 0 0 0 = w := by
  refine BitVec.eq_of_toNat_eq ?_
  simp only [wordR, BitVec.toNat_ofNat, opField, bits] at *
  omega

theorem wordR1_fields (hz : bits w 19 0 = 0) : wordR op (f1Field w) 0 0 0 = w := by
  refine BitVec.eq_of_toNat_eq ?_
  simp only [wordR, BitVec.toNat_ofNat, opField, f1Field, Fin.val_ofNat, bits] at *
  omega

theorem wordR2_fields (hz : bits w 15 0 = 0) : wordR op (f1Field w) (f2Field w) 0 0 = w := by
  refine BitVec.eq_of_toNat_eq ?_
  simp only [wordR, BitVec.toNat_ofNat, opField, f1Field, f2Field, Fin.val_ofNat, bits] at *
  omega

theorem wordR3_fields (hz : bits w 11 0 = 0) : wordR op (f1Field w) (f2Field w) (f3Field w) 0 = w := by
  refine BitVec.eq_of_toNat_eq ?_
  simp only [wordR, BitVec.toNat_ofNat, opField, f1Field, f2Field, f3Field, Fin.val_ofNat, bits] at *
  omega

theorem wordR4_fields (hz : bits w 7 0 = 0) :
    wordR op (f1Field w) (f2Field w) (f3Field w) (f4Field w) = w := by
  refine BitVec.eq_of_toNat_eq ?_
  simp only [wordR, BitVec.toNat_ofNat, opField, f1Field, f2Field, f3Field, f4Field, Fin.val_ofNat, bits] at *
  omega

theorem wordI_fields (hz : bits w 19 16 = 0) : wordI op (f1Field w) (immField w) = w := by
  refine BitVec.eq_of_toNat_eq ?_
  simp only [wordI, BitVec.toNat_ofNat, opField, f1Field, immField, Fin.val_ofNat, bits] at *
  omega

theorem wordS_fields (hz : bits w 19 10 = 0) : wordI op (f1Field w) (shField w) = w := by
  refine BitVec.eq_of_toNat_eq ?_
  simp only [wordI, BitVec.toNat_ofNat, opField, f1Field, shField, Fin.val_ofNat, bits] at *
  omega

theorem wordK_fields (hz : bits w 19 9 = 0) :
    wordK op (f1Field w) (bankField w).code (idxField w) = w := by
  refine BitVec.eq_of_toNat_eq ?_
  simp only [wordK, BitVec.toNat_ofNat, bankField_code, opField, f1Field, idxField, Fin.val_ofNat, bits] at *
  omega

end Fields

/-- A command read from a word with its opcode and zeros where its format requires them is written as that word. -/
theorem encode_readFrom {w : Word} {i : Instr} (hop : opField w = i.opcode)
    (hz : bits w i.format.mbzHi i.format.mbzLo = 0) : encode (i.readFrom w) = w := by
  cases i with
  | ldblk | stblk | flush | clre => exact wordZ_fields hop hz
  | load _ | store _ | tstz _ | valsi _ | encrypt _ => exact wordR1_fields hop hz
  | mov _ _ | add _ _ | sub _ _ | cmp _ _ | reduce _ _ | derive _ _ => exact wordR2_fields hop hz
  | gcd _ _ _ | modinv _ _ _ | decrypt _ _ _ => exact wordR3_fields hop hz
  | mulmod _ _ _ _ => exact wordR4_fields hop hz
  | ldi _ _ => exact wordI_fields hop hz
  | shl _ _ | shr _ _ => exact wordS_fields hop hz
  | kld _ _ _ | kst _ _ _ => exact wordK_fields hop hz

end Sys2Proof

namespace Sys2Proof.Machine

/-! ## Running a word that is no command (R80, R220) -/

/-- A word that does not decode raises ILLEGAL_CMD, whatever the reason (R80, R86, R87). -/
theorem runWord_of_error {w : Word} {e : DecodeError} (h : decode w = .error e) (s : State) :
    runWord w s = .next (s.raised 0x01) := by
  simp only [runWord, h]
  rfl

/-- A write to CMD of a word that does not decode raises ILLEGAL_CMD (R34, R80). -/
theorem step_of_error {s : State} {rest : List HostAction} {w : Word} {e : DecodeError}
    (hp : s.host.pending = .write 0x04 4 w :: rest) (h : decode w = .error e) :
    step s = .next (State.raised { s with host := { s.host with pending := rest } } 0x01) :=
  calc step s = runWord w (s.setPending rest) := step_write (off := 0x04) rfl (by decide) hp
    _ = .next ((s.setPending rest).raised 0x01) := runWord_of_error h _

end Sys2Proof.Machine
end

section
/-! PROOF. The statements of 30_encoding.md: encoding and decoding undo each other (R80 to R84, R90), the opcode table
(R83, R85), and the words that are no commands (R86, R87). -/

open Sys2Proof Sys2Proof.Machine

/-- Settles O7: the word of a well-formed command holds all that decoding it to that command asks for. -/
theorem decodeOfEncode : Obligations.DecodeOfEncode := by
  intro i hwf
  exact decode_eq_ok_iff.2 (encode_reads hwf)

/-- Settles O8: the command's operands are read from the fields of the word, which with the opcode and the zeros make up
the word. -/
theorem encodeOfDecode : Obligations.EncodeOfDecode := by
  intro w i h
  obtain ⟨hop, hz, hread⟩ := decode_eq_ok_iff.1 h
  rw [← hread]
  exact ⟨i.readFrom_wellFormed w, encode_readFrom hop hz⟩

/-- Settles O9: a row and a command with the same opcode and format ask the same of a word, and every row has such a
command, every command such a row. -/
theorem decodeMatchesOpcodeTable : Obligations.DecodeMatchesOpcodeTable := by
  intro w
  have hmatch : ∀ row ∈ opcodeRows,
      (row.matchesWord w = true ↔ opField w = row.op ∧ bits w row.format.mbzHi row.format.mbzLo = 0) :=
    fun row hrow => OpcodeRow.matchesWord_iff (OpcodeRow.op_lt hrow) w
  refine ⟨⟨?_, ?_⟩, ?_, ?_⟩
  · rintro ⟨i, hi⟩
    obtain ⟨hop, hz, -⟩ := decode_eq_ok_iff.1 hi
    obtain ⟨row, hrow, hrowop, hformat⟩ := i.exists_row
    exact ⟨row, hrow, (hmatch row hrow).2 (hrowop ▸ hformat ▸ ⟨hop, hz⟩)⟩
  · rintro ⟨row, hrow, hm⟩
    obtain ⟨i, hop, hformat⟩ := OpcodeRow.exists_instr hrow
    obtain ⟨hw, hz⟩ := (hmatch row hrow).1 hm
    refine ⟨i.readFrom w, ?_⟩
    rw [decode_of_opcode (hw.trans hop.symm), ifZero_ok, hformat]
    exact ⟨hz, rfl⟩
  · intro i hi row hrow hm
    exact ((hmatch row hrow).1 hm).1.symm.trans (decode_eq_ok_iff.1 hi).1
  · intro row hrow row' hrow' hm hm'
    exact OpcodeRow.eq_of_op_eq row hrow row' hrow'
      (((hmatch row hrow).1 hm).1.symm.trans ((hmatch row' hrow').1 hm').1)

/-- Settles O11: no command has an opcode of these ranges, so the word does not decode. -/
theorem reservedOpcodeRaises : Obligations.ReservedOpcodeRaises := by
  intro s rest w hp hrange
  refine step_of_error hp (decode_of_reserved fun i hop => ?_)
  have hi := i.opcode_range
  rw [← hop, opField_eq] at hi
  omega

/-- Settles O12: the row's opcode is a command's, whose format is the row's, and decoding finds its bits not zero. -/
theorem mustBeZeroRaises : Obligations.MustBeZeroRaises := by
  intro s rest w hp row hrow hop hbits
  obtain ⟨i, hiop, hformat⟩ := OpcodeRow.exists_instr hrow
  have hopcode : opField w = i.opcode := (opField_eq w).trans (hop.trans hiop.symm)
  have hnz : bits w i.format.mbzHi i.format.mbzLo ≠ 0 := by
    rwa [hformat, ne_eq, ← Format.and_mbz_eq_zero_iff]
  obtain ⟨hz, -⟩ | ⟨-, herror⟩ := ifZero_cases w i.format.mbzHi i.format.mbzLo (i.readFrom w)
  · exact absurd hz hnz
  · exact step_of_error hp ((decode_of_opcode hopcode).trans herror)

/-- Settles O10: each word is the encoding of its command. -/
theorem exampleWordsDecode : Obligations.ExampleWordsDecode :=
  ⟨decodeOfEncode (.mov 2 1) rfl, decodeOfEncode (.ldi 3 1) rfl, decodeOfEncode (.load 6) rfl,
    decodeOfEncode (.kld 0 .pub 5) rfl, decodeOfEncode (.kst 7 .priv 255) rfl, decodeOfEncode (.add 0 2) rfl,
    decodeOfEncode (.shl 0 4) rfl, decodeOfEncode (.shr 2 1023) rfl, decodeOfEncode (.mulmod 6 5 2 1) rfl,
    decodeOfEncode (.decrypt 5 3 1) rfl, decodeOfEncode .clre rfl⟩

end

section
/-! PROOF. What ADD and SUB write (R102, R103), and that the adder and the subtractor limb by limb compute it (R101). -/

namespace Sys2Proof.Laws

/-- The word a well-formed command's own rule writes out decodes to the command. -/
theorem decode_ruleWord {i : Instr} (hword : EncodesRuleWord.Statement i) (hwf : i.wellFormed = true) :
    decode (BitVec.ofNat 32 (ruleWord i)) = .ok i := by
  rw [← hword]
  exact decodeOfEncode i hwf

end Sys2Proof.Laws

namespace Sys2Proof.Machine

/-! ## What ADD and SUB write -/

/-- A number written to a register with a flag is read back modulo 2^1024. -/
theorem CoreState.num_setReg_setCf_complete (c : CoreState) (d : Reg) (v : Nat) (b : Bool) :
    ((c.setReg d (BitVec.ofNat 1024 v)).setCf b).complete.num d = v % 2 ^ 1024 := by
  rw [CoreState.num, CoreState.reg_complete, CoreState.reg_setCf, CoreState.reg_setReg_self, BitVec.toNat_ofNat]

/-- SUB's difference, wrapped upward when it borrows, is the difference of the integers modulo M (R103). -/
theorem wrappedDiff_emod {A B M : Nat} (hB : B ≤ M) :
    (((if A ≥ B then A - B else A + M - B) % M : Nat) : Int) = ((A : Int) - B) % M := by
  split
  next hge => rw [Int.natCast_emod, Int.ofNat_sub hge]
  next =>
    have hwrap : ((A + M - B : Nat) : Int) = (A : Int) - B + M := by omega
    rw [Int.natCast_emod, hwrap, Int.add_emod_right]

/-- ADD's carry is a sum that does not fit a register (R102). -/
theorem carryOut_eq_true_iff (A B : Nat) : carryOut A B = true ↔ 2 ^ 1024 ≤ A + B := decide_eq_true_iff

/-- SUB's borrow is a negative difference (R103). -/
theorem borrowOut_eq_true_iff (A B : Nat) : borrowOut A B = true ↔ A < B := decide_eq_true_iff

section Writes

variable (a b : Reg) (s : State)

/-- ADD's next state: the sum and its carry, completed (R102). -/
theorem exec_add :
    exec (.add a b) s = .next (s.withCore
      ((s.core.setReg a (BitVec.ofNat 1024 (s.core.num a + s.core.num b))).setCf
        (carryOut (s.core.num a) (s.core.num b))).complete) := rfl

/-- SUB's next state: the wrapped difference and its borrow, completed (R103). -/
theorem exec_sub :
    exec (.sub a b) s = .next (s.withCore
      ((s.core.setReg a (BitVec.ofNat 1024 (if s.core.num a ≥ s.core.num b then s.core.num a - s.core.num b
        else s.core.num a + 2 ^ 1024 - s.core.num b))).setCf
        (borrowOut (s.core.num a) (s.core.num b))).complete) := rfl

/-- ADD completes with the sum modulo 2^1024 and the carry, and writes nothing else (R102). -/
theorem exec_add_writes :
    ∃ t, exec (.add a b) s = .next t ∧ Completed { reg := fun r => r == a, cf := true } s t ∧
      t.core.num a = (s.core.num a + s.core.num b) % 2 ^ 1024 ∧
      (t.core.cf = true ↔ 2 ^ 1024 ≤ s.core.num a + s.core.num b) := by
  refine ⟨_, exec_add a b s, completed_setReg_setCf s a _ _, ?_, ?_⟩
  · rw [State.withCore_core, CoreState.num_setReg_setCf_complete]
  · rw [State.withCore_core, CoreState.complete_cf, CoreState.setCf_cf, carryOut_eq_true_iff]

/-- SUB completes with the difference modulo 2^1024 and the borrow, and writes nothing else (R103). -/
theorem exec_sub_writes :
    ∃ t, exec (.sub a b) s = .next t ∧ Completed { reg := fun r => r == a, cf := true } s t ∧
      (t.core.num a : Int) = ((s.core.num a : Int) - s.core.num b) % 2 ^ 1024 ∧
      (t.core.cf = true ↔ s.core.num a < s.core.num b) := by
  refine ⟨_, exec_sub a b s, completed_setReg_setCf s a _ _, ?_, ?_⟩
  · rw [State.withCore_core, CoreState.num_setReg_setCf_complete, wrappedDiff_emod (s.core.num_lt b).le,
      Nat.cast_pow, Nat.cast_ofNat]
  · rw [State.withCore_core, CoreState.complete_cf, CoreState.setCf_cf, borrowOut_eq_true_iff]

end Writes

/-! ## Numbers as limbs (R8, R22) -/

theorem limb_lt (V j : Nat) : limb V j < 2 ^ 32 := Nat.mod_lt _ (by decide)

theorem two_pow_limb_succ (n : Nat) : 2 ^ (32 * (n + 1)) = 2 ^ (32 * n) * 2 ^ 32 := by
  rw [Nat.mul_succ, pow_add]

/-- The n lowest limbs of a number have its value modulo 2^(32 n). -/
theorem limbsValue_limb (V n : Nat) : limbsValue (limb V) n = V % 2 ^ (32 * n) := by
  induction n with
  | zero => simp [limbsValue, Nat.mod_one]
  | succ n ih => rw [limbsValue, ih, two_pow_limb_succ, Nat.mod_mul, limb, Nat.mul_comm (2 ^ (32 * n))]

/-- n limbs, each of 32 bits, have a value of 32 n bits. -/
theorem limbsValue_lt {f : Nat → Nat} (hf : ∀ j, f j < 2 ^ 32) (n : Nat) : limbsValue f n < 2 ^ (32 * n) := by
  induction n with
  | zero => simp [limbsValue]
  | succ n ih =>
    calc limbsValue f n + f n * 2 ^ (32 * n)
        < 2 ^ (32 * n) + f n * 2 ^ (32 * n) := Nat.add_lt_add_right ih _
      _ = (f n + 1) * 2 ^ (32 * n) := by ring
      _ ≤ 2 ^ 32 * 2 ^ (32 * n) := Nat.mul_le_mul_right _ (hf n)
      _ = 2 ^ (32 * (n + 1)) := by rw [two_pow_limb_succ, Nat.mul_comm]

/-! ## The adder limb by limb (R101) -/

section Adder

variable (A B : Nat)

theorem limbSum_lt (j : Nat) : limbSum A B j < 2 ^ 32 := Nat.mod_lt _ (by decide)

theorem limbCarry_le_one (j : Nat) : limbCarry A B j ≤ 1 := by
  induction j with
  | zero => exact Nat.zero_le _
  | succ j ih =>
    have hA := limb_lt A j
    have hB := limb_lt B j
    rw [limbCarry]
    omega

/-- A limb of the sum and the carry out of it are the limbs' sum with the carry in. -/
theorem limbSum_add_limbCarry (j : Nat) :
    limbSum A B j + 2 ^ 32 * limbCarry A B (j + 1) = limb A j + limb B j + limbCarry A B j :=
  Nat.mod_add_div _ _

/-- The n limbs of the sum, with the carry out of them, are the sum of the operands' n limbs. -/
theorem limbsValue_limbSum_add_carry (n : Nat) :
    limbsValue (limbSum A B) n + limbCarry A B n * 2 ^ (32 * n) =
      limbsValue (limb A) n + limbsValue (limb B) n := by
  induction n with
  | zero => simp [limbsValue, limbCarry]
  | succ n ih =>
    have hlimb := limbSum_add_limbCarry A B n
    simp only [limbsValue, two_pow_limb_succ]
    linear_combination ih + 2 ^ (32 * n) * hlimb

variable {A B} {n : Nat} (hA : A < 2 ^ (32 * n)) (hB : B < 2 ^ (32 * n))

include hA hB

/-- The adder over all limbs gives the quotient and the remainder of the sum by 2^(32 n). -/
theorem limbAdder_div_mod :
    (A + B) / 2 ^ (32 * n) = limbCarry A B n ∧ (A + B) % 2 ^ (32 * n) = limbsValue (limbSum A B) n := by
  have hsum := limbsValue_limbSum_add_carry A B n
  rw [limbsValue_limb, limbsValue_limb, Nat.mod_eq_of_lt hA, Nat.mod_eq_of_lt hB] at hsum
  rw [Nat.div_mod_unique (by positivity), ← hsum, Nat.mul_comm]
  exact ⟨rfl, limbsValue_lt (limbSum_lt A B) n⟩

/-- The adder carries out exactly when the sum does not fit its limbs. -/
theorem limbCarry_eq_one_iff : limbCarry A B n = 1 ↔ 2 ^ (32 * n) ≤ A + B := by
  obtain ⟨hdiv, -⟩ := limbAdder_div_mod hA hB
  have hle := limbCarry_le_one A B n
  have hpos : 1 ≤ limbCarry A B n ↔ 2 ^ (32 * n) ≤ A + B := by
    rw [← hdiv, Nat.one_le_div_iff (by positivity)]
  omega

end Adder

/-! ## The subtractor limb by limb (R101) -/

section Subtractor

variable (A B : Nat)

theorem limbBorrow_le_one (j : Nat) : limbBorrow A B j ≤ 1 := by
  cases j with
  | zero => exact Nat.zero_le _
  | succ j =>
    rw [limbBorrow]
    split <;> decide

theorem limbDiff_lt (j : Nat) : limbDiff A B j < 2 ^ 32 := by
  rw [limbDiff]
  omega

/-- A limb of the difference, less what it borrowed, is the limbs' difference with the borrow in. -/
theorem limbDiff_sub_limbBorrow (j : Nat) :
    (limbDiff A B j : Int) - 2 ^ 32 * limbBorrow A B (j + 1) = limb A j - limb B j - limbBorrow A B j := by
  have hA := limb_lt A j
  have hB := limb_lt B j
  have hd := limbBorrow_le_one A B j
  rw [limbDiff, limbBorrow]
  split <;> omega

/-- The n limbs of the difference, less the borrow out of them, are the difference of the operands' n limbs. -/
theorem limbsValue_limbDiff_sub_borrow (n : Nat) :
    (limbsValue (limbDiff A B) n : Int) - limbBorrow A B n * 2 ^ (32 * n) =
      limbsValue (limb A) n - limbsValue (limb B) n := by
  induction n with
  | zero => simp [limbsValue, limbBorrow]
  | succ n ih =>
    have hlimb := limbDiff_sub_limbBorrow A B n
    have hpow : (2 : Int) ^ (32 * (n + 1)) = 2 ^ (32 * n) * 2 ^ 32 := mod_cast two_pow_limb_succ n
    simp only [limbsValue, Nat.cast_add, Nat.cast_mul, Nat.cast_pow, Nat.cast_ofNat, hpow]
    linear_combination ih + 2 ^ (32 * n) * hlimb

variable {A B} {n : Nat} (hA : A < 2 ^ (32 * n)) (hB : B < 2 ^ (32 * n))

include hA hB

theorem limbsValue_limbDiff_eq :
    (limbsValue (limbDiff A B) n : Int) = A - B + limbBorrow A B n * 2 ^ (32 * n) := by
  have hdiff := limbsValue_limbDiff_sub_borrow A B n
  rw [limbsValue_limb, limbsValue_limb, Nat.mod_eq_of_lt hA, Nat.mod_eq_of_lt hB] at hdiff
  linear_combination hdiff

/-- The subtractor over all limbs gives the difference modulo 2^(32 n). -/
theorem limbsValue_limbDiff_eq_emod :
    (limbsValue (limbDiff A B) n : Int) = ((A : Int) - B) % 2 ^ (32 * n) := by
  have hlt : (limbsValue (limbDiff A B) n : Int) < 2 ^ (32 * n) := mod_cast limbsValue_lt (limbDiff_lt A B) n
  calc (limbsValue (limbDiff A B) n : Int)
      = (limbsValue (limbDiff A B) n : Int) % 2 ^ (32 * n) := (Int.emod_eq_of_lt (Int.natCast_nonneg _) hlt).symm
    _ = ((A : Int) - B) % 2 ^ (32 * n) := by rw [limbsValue_limbDiff_eq hA hB, Int.add_mul_emod_self_right]

/-- The subtractor borrows out exactly when the difference is negative. -/
theorem limbBorrow_eq_one_iff : limbBorrow A B n = 1 ↔ A < B := by
  have hvalue := limbsValue_limbDiff_eq hA hB
  have hlt : (limbsValue (limbDiff A B) n : Int) < 2 ^ (32 * n) := mod_cast limbsValue_lt (limbDiff_lt A B) n
  obtain hd | hd := Nat.le_one_iff_eq_zero_or_eq_one.1 (limbBorrow_le_one A B n)
  · rw [hd, Nat.cast_zero, zero_mul] at hvalue
    omega
  · rw [hd, Nat.cast_one, one_mul] at hvalue
    omega

end Subtractor

end Sys2Proof.Machine
end

section
/-! PROOF. The statements of 40_add_sub.md: ADD and SUB (R102, R103), and the adder they share limb by limb (R101). -/

open Sys2Proof Sys2Proof.Machine Sys2Proof.Laws

/-- Settles O34: over 32 limbs the adder's carry and value are the quotient and the remainder of the sum by 2^1024, the
subtractor's value and borrow are the difference modulo 2^1024 and its sign; ADD and SUB write the same. -/
theorem limbAdderMatches : Obligations.LimbAdderMatches := by
  intro a b s A B
  have hA : A < 2 ^ (32 * 32) := s.core.num_lt a
  have hB : B < 2 ^ (32 * 32) := s.core.num_lt b
  obtain ⟨hdiv, hmod⟩ := limbAdder_div_mod hA hB
  have hdiff := limbsValue_limbDiff_eq_emod hA hB
  have hcarry := limbCarry_eq_one_iff hA hB
  have hborrow := limbBorrow_eq_one_iff hA hB
  obtain ⟨t, ht, -, hsum, hcf⟩ := exec_add_writes a b s
  obtain ⟨u, hu, -, hsub, hbf⟩ := exec_sub_writes a b s
  refine ⟨⟨hmod.symm, hdiv.symm, t, ht, hsum.trans hmod, hcf.trans hcarry.symm⟩,
    ⟨hdiff, hborrow, u, hu, ?_, hbf.trans hborrow.symm⟩,
    fun j => ⟨limbCarry_le_one A B j, limbBorrow_le_one A B j⟩⟩
  exact Int.ofNat_inj.1 (hsub.trans hdiff.symm)

/-- Settles O28: the word is the encoding of ADD, which writes the sum and the carry. -/
theorem addResult : Obligations.AddResult := by
  intro a b s
  exact ⟨decode_ruleWord (EncodesRuleWord.add a b) rfl, exec_add_writes a b s⟩

/-- Settles O29: the word is the encoding of SUB, which writes the wrapped difference and the borrow. -/
theorem subResult : Obligations.SubResult := by
  intro a b s
  exact ⟨decode_ruleWord (EncodesRuleWord.sub a b) rfl, exec_sub_writes a b s⟩

end

section
/-! PROOF. What SHL, SHR, CMP and TSTZ write (R110 to R113), and that the shifts (R114) and the comparison (R112) limb by
limb compute it. -/

namespace Sys2Proof.Machine

/-! ## What SHL and SHR write -/

section Shifts

variable (a : Reg) (sh : Nat) (s : State)

/-- SHL's next state: the register shifted left, the bits above 1023 lost (R110). -/
theorem exec_shl :
    exec (.shl a sh) s = .next (s.withCore (s.core.setReg a (s.core.reg a <<< sh)).complete) := by
  have hvalue : BitVec.ofNat 1024 (s.core.num a * 2 ^ sh) = s.core.reg a <<< sh :=
    BitVec.eq_of_toNat_eq (by rw [BitVec.toNat_ofNat, BitVec.toNat_shiftLeft, Nat.shiftLeft_eq, CoreState.num])
  rw [exec, execShl, conclude_ok, hvalue]

/-- SHR's next state: the register shifted right, zeros from above (R111). -/
theorem exec_shr :
    exec (.shr a sh) s = .next (s.withCore (s.core.setReg a (s.core.reg a >>> sh)).complete) := by
  have hvalue : BitVec.ofNat 1024 (s.core.num a / 2 ^ sh) = s.core.reg a >>> sh := by
    rw [CoreState.num, ← Nat.shiftRight_eq_div_pow, ← BitVec.toNat_ushiftRight, BitVec.ofNat_toNat,
      BitVec.setWidth_eq]
  rw [exec, execShr, conclude_ok, hvalue]

/-- SHL completes with the product by 2^sh modulo 2^1024, every bit sh places up, and writes nothing else (R110). -/
theorem exec_shl_writes :
    ∃ t, exec (.shl a sh) s = .next t ∧ Completed { reg := fun r => r == a } s t ∧
      t.core.num a = s.core.num a * 2 ^ sh % 2 ^ 1024 ∧
      ∀ i < 1024, (t.core.reg a).getLsbD i = if sh ≤ i then (s.core.reg a).getLsbD (i - sh) else false := by
  refine ⟨_, exec_shl a sh s, completed_setReg s a _, ?_, fun i hi => ?_⟩
  · rw [State.withCore_core, CoreState.num, CoreState.reg_complete, CoreState.reg_setReg_self,
      BitVec.toNat_shiftLeft, Nat.shiftLeft_eq, CoreState.num]
  · rw [State.withCore_core, CoreState.reg_complete, CoreState.reg_setReg_self, BitVec.getLsbD_shiftLeft]
    by_cases h : sh ≤ i
    · simp [hi, h]
    · simp [h, Nat.lt_of_not_le h]

/-- SHR completes with the quotient by 2^sh, every bit sh places down, and writes nothing else (R111). -/
theorem exec_shr_writes :
    ∃ t, exec (.shr a sh) s = .next t ∧ Completed { reg := fun r => r == a } s t ∧
      t.core.num a = s.core.num a / 2 ^ sh ∧
      ∀ i < 1024, (t.core.reg a).getLsbD i = if i + sh ≤ 1023 then (s.core.reg a).getLsbD (i + sh) else false := by
  refine ⟨_, exec_shr a sh s, completed_setReg s a _, ?_, fun i _ => ?_⟩
  · rw [State.withCore_core, CoreState.num, CoreState.reg_complete, CoreState.reg_setReg_self,
      BitVec.toNat_ushiftRight, Nat.shiftRight_eq_div_pow, CoreState.num]
  · rw [State.withCore_core, CoreState.reg_complete, CoreState.reg_setReg_self, BitVec.getLsbD_ushiftRight,
      Nat.add_comm sh]
    split
    next => rfl
    next h => exact BitVec.getLsbD_of_ge _ _ (by omega)

end Shifts

/-! ## What CMP and TSTZ write -/

section Tests

variable (a b : Reg) (s : State)

/-- CMP's next state: the compare code of the two registers (R112). -/
theorem exec_cmp :
    exec (.cmp a b) s = .next (s.withCore (s.core.setCmp (compareCode (s.core.num a) (s.core.num b))).complete) := rfl

/-- TSTZ's next state: the zero test of the register (R113). -/
theorem exec_tstz :
    exec (.tstz a) s = .next (s.withCore (s.core.setZf (zeroTest (s.core.num a))).complete) := rfl

end Tests

theorem zeroTest_eq_true_iff (A : Nat) : zeroTest A = true ↔ A = 0 := decide_eq_true_iff

section CompareCode

variable {A B : Nat}

theorem compareCode_of_lt (h : A < B) : compareCode A B = 0b11 := if_pos h

theorem compareCode_self (A : Nat) : compareCode A A = 0b00 := by
  rw [compareCode, if_neg (Nat.lt_irrefl A), if_pos rfl]

theorem compareCode_of_gt (h : B < A) : compareCode A B = 0b01 := by
  rw [compareCode, if_neg h.not_gt, if_neg h.ne']

/-- The three codes tell the three orders of two numbers apart (R27). -/
theorem compareCode_iff :
    (compareCode A B = 0b11 ↔ A < B) ∧ (compareCode A B = 0b00 ↔ A = B) ∧ (compareCode A B = 0b01 ↔ A > B) := by
  obtain hlt | rfl | hgt := lt_trichotomy A B
  · simp [compareCode_of_lt hlt, hlt, hlt.ne, hlt.not_gt]
  · simp [compareCode_self]
  · simp [compareCode_of_gt hgt, hgt, hgt.ne', hgt.not_gt]

end CompareCode

/-! ## Shifting limbs (R114) -/

/-- Of a number cut to n limbs, the n lowest limbs are the number's own. -/
theorem limb_mod_two_pow {n j : Nat} (h : j < n) (V : Nat) : limb (V % 2 ^ (32 * n)) j = limb V j := by
  obtain ⟨d, rfl⟩ := Nat.exists_eq_add_of_lt h
  have hsplit : 32 * (j + d + 1) = 32 * j + (32 + 32 * d) := by ring
  rw [limb, limb, hsplit, pow_add, Nat.mod_mul_right_div_self, Nat.mod_mod_of_dvd _ (pow_dvd_pow 2 (by omega))]

/-- Dividing by 2^(32 q) moves every limb q places down. -/
theorem limb_div_two_pow_limbs (V q j : Nat) : limb (V / 2 ^ (32 * q)) j = limb V (j + q) := by
  rw [limb, limb, Nat.div_div_eq_div_mul, ← pow_add, ← Nat.mul_add, Nat.add_comm q]

/-- Multiplying by 2^(32 q) moves every limb q places up. -/
theorem limb_mul_two_pow_limbs (V q j : Nat) : limb (V * 2 ^ (32 * q)) (j + q) = limb V j := by
  rw [← limb_div_two_pow_limbs, Nat.mul_div_cancel _ (by positivity)]

/-- Multiplying by 2^(32 q) leaves zeros in the q lowest limbs. -/
theorem limb_mul_two_pow_limbs_of_lt {q j : Nat} (h : j < q) (V : Nat) : limb (V * 2 ^ (32 * q)) j = 0 := by
  rw [← limb_mod_two_pow h, Nat.mul_mod_left, limb, Nat.zero_div, Nat.zero_mod]

/-- A limb of a number divided by 2^r, r at most 32, has its low bits from the same limb of the number and its high bits
from the limb above. -/
theorem limb_div_two_pow {r : Nat} (hr : r ≤ 32) (V j : Nat) :
    limb (V / 2 ^ r) j = limb V j / 2 ^ r + limb V (j + 1) * 2 ^ (32 - r) % 2 ^ 32 := by
  have hpow : 2 ^ r * 2 ^ (32 - r) = 2 ^ 32 := by rw [← pow_add, Nat.add_sub_cancel' hr]
  have habove : limb V (j + 1) = V / 2 ^ (32 * j) / 2 ^ 32 % 2 ^ 32 := by
    rw [limb, two_pow_limb_succ, Nat.div_div_eq_div_mul]
  rw [habove, limb, limb, Nat.div_right_comm]
  generalize V / 2 ^ (32 * j) = W
  calc W / 2 ^ r % 2 ^ 32
      = W % (2 ^ 32 * 2 ^ r) / 2 ^ r := by rw [Nat.mul_comm, Nat.mod_mul_right_div_self]
    _ = (W % 2 ^ 32 + 2 ^ r * (2 ^ (32 - r) * (W / 2 ^ 32 % 2 ^ r))) / 2 ^ r := by
        rw [Nat.mod_mul, ← Nat.mul_assoc, hpow]
    _ = W % 2 ^ 32 / 2 ^ r + W / 2 ^ 32 * 2 ^ (32 - r) % (2 ^ r * 2 ^ (32 - r)) := by
        rw [Nat.add_mul_div_left _ _ (by positivity), Nat.mul_mod_mul_right, Nat.mul_comm (2 ^ (32 - r))]
    _ = W % 2 ^ 32 / 2 ^ r + W / 2 ^ 32 % 2 ^ 32 * 2 ^ (32 - r) % 2 ^ 32 := by rw [hpow, Nat.mod_mul_mod]

section RegisterLimbs

variable {V : Nat} (hV : V < 2 ^ (32 * 32))

include hV

/-- A register's number has no limbs above limb 31. -/
theorem limbOrZero_natCast (j : Nat) : limbOrZero V j = limb V j := by
  by_cases hj : j < 32
  · rw [limbOrZero, if_pos (by omega), Int.toNat_natCast]
  · have hlt : V < 2 ^ (32 * j) := hV.trans_le (Nat.pow_le_pow_right (by decide) (by omega))
    rw [limbOrZero, if_neg (by omega), limb, Nat.div_eq_of_lt hlt, Nat.zero_mod]

theorem limbOrZero_add (q j : Nat) : limbOrZero V (j + q) = limb (V / 2 ^ (32 * q)) j := by
  rw [← Nat.cast_add, limbOrZero_natCast hV, limb_div_two_pow_limbs]

theorem limbOrZero_sub (q j : Nat) : limbOrZero V (j - q) = limb (V * 2 ^ (32 * q)) j := by
  by_cases hj : j < q
  · rw [limbOrZero, if_neg (by omega), limb_mul_two_pow_limbs_of_lt hj]
  · obtain ⟨k, rfl⟩ := Nat.exists_eq_add_of_le' (Nat.le_of_not_lt hj)
    rw [limb_mul_two_pow_limbs, Nat.cast_add, Int.add_sub_cancel, limbOrZero_natCast hV]

/-- SHR by q limbs and r bits is a division by 2^r of the number moved q limbs down. -/
theorem limbShr_eq (sh j : Nat) : limbShr V sh j = limb (V / 2 ^ sh) j := by
  have hsh : V / 2 ^ sh = V / 2 ^ (32 * (sh / 32)) / 2 ^ (sh % 32) := by
    rw [Nat.div_div_eq_div_mul, ← pow_add, Nat.div_add_mod]
  have hnext : (j : Int) + (sh / 32 : Nat) + 1 = (j + 1 : Nat) + (sh / 32 : Nat) := by omega
  rw [hsh, limb_div_two_pow (by omega), ← limbOrZero_add hV, ← limbOrZero_add hV, ← hnext]
  rfl

/-- SHL by q limbs and r bits is a division by 2^(32-r) of the number moved q + 1 limbs up. -/
theorem limbShl_eq (sh j : Nat) : limbShl V sh j = limb (V * 2 ^ sh) j := by
  have hsh : V * 2 ^ sh = V * 2 ^ (32 * (sh / 32 + 1)) / 2 ^ (32 - sh % 32) := by
    have hsplit : 32 * (sh / 32 + 1) = sh + (32 - sh % 32) := by omega
    rw [hsplit, pow_add, ← Nat.mul_assoc, Nat.mul_div_cancel _ (by positivity)]
  have hsame : ((j + 1 : Nat) : Int) - (sh / 32 + 1 : Nat) = j - (sh / 32 : Nat) := by omega
  have hbelow : (j : Int) - (sh / 32 + 1 : Nat) = j - (sh / 32 : Nat) - 1 := by omega
  rw [hsh, limb_div_two_pow (by omega), ← limbOrZero_sub hV, ← limbOrZero_sub hV, hsame, hbelow,
    Nat.sub_sub_self (by omega), Nat.add_comm]
  rfl

end RegisterLimbs

/-! ## Comparing limbs, most significant first (R112) -/

/-- The highest limb at which two numbers differ decides which is the smaller. -/
theorem limbsValue_succ_lt {f g : Nat → Nat} (hf : ∀ j, f j < 2 ^ 32) {n : Nat} (h : f n < g n) :
    limbsValue f (n + 1) < limbsValue g (n + 1) :=
  calc limbsValue f n + f n * 2 ^ (32 * n)
      < 2 ^ (32 * n) + f n * 2 ^ (32 * n) := Nat.add_lt_add_right (limbsValue_lt hf n) _
    _ = (f n + 1) * 2 ^ (32 * n) := by ring
    _ ≤ g n * 2 ^ (32 * n) := Nat.mul_le_mul_right _ h
    _ ≤ limbsValue g n + g n * 2 ^ (32 * n) := Nat.le_add_left _ _

theorem compareCode_add_right (A B k : Nat) : compareCode (A + k) (B + k) = compareCode A B := by
  simp only [compareCode, Nat.add_lt_add_iff_right, Nat.add_right_cancel_iff]

/-- The comparison of n limbs from the top is the comparison of their values, in the encoding of CMP (R27). -/
theorem ofInt_limbCompare (A B n : Nat) :
    BitVec.ofInt 2 (limbCompare A B n) = compareCode (limbsValue (limb A) n) (limbsValue (limb B) n) := by
  induction n with
  | zero => rfl
  | succ n ih =>
    obtain hlt | heq | hgt := lt_trichotomy (limb A n) (limb B n)
    · rw [limbCompare, if_pos hlt, compareCode_of_lt (limbsValue_succ_lt (limb_lt A) hlt)]
      rfl
    · rw [limbCompare, if_neg heq.not_lt, if_neg heq.not_gt, ih, limbsValue, limbsValue, heq, compareCode_add_right]
    · rw [limbCompare, if_neg hgt.not_gt, if_pos hgt, compareCode_of_gt (limbsValue_succ_lt (limb_lt B) hgt)]
      rfl

end Sys2Proof.Machine
end

section
/-! PROOF. The statements of 41_shift_compare_zero.md: SHL, SHR, CMP and TSTZ (R110 to R113), the shifts limb by limb
(R114) and the comparison from the top limb down (R112). -/

open Sys2Proof Sys2Proof.Machine Sys2Proof.Laws

/-- Settles O35: the limb-wise shifts give the limbs of A * 2^sh, whose 32 lowest SHL writes, and of A div 2^sh, which
SHR writes. -/
theorem limbShiftsMatch : Obligations.LimbShiftsMatch := by
  intro a sh s _
  have hA : s.core.num a < 2 ^ (32 * 32) := s.core.num_lt a
  obtain ⟨t, ht, -, hshl, -⟩ := exec_shl_writes a sh s
  obtain ⟨u, hu, -, hshr, -⟩ := exec_shr_writes a sh s
  refine ⟨⟨t, ht, fun j hj => ?_⟩, u, hu, fun j _ => ?_⟩
  · rw [hshl, limbShl_eq hA]
    exact limb_mod_two_pow hj _
  · rw [hshr, limbShr_eq hA]

/-- Settles O36: a register's 32 limbs have the register's value, so both comparisons are of the same numbers. -/
theorem limbCompareMatches : Obligations.LimbCompareMatches := by
  intro a b s
  have hlimbs (r : Reg) : limbsValue (limb (s.core.num r)) 32 = s.core.num r :=
    (limbsValue_limb _ 32).trans (Nat.mod_eq_of_lt (s.core.num_lt r))
  refine ⟨_, exec_cmp a b s, ?_⟩
  rw [State.withCore_core, CoreState.complete_cmp, CoreState.setCmp_cmp, ofInt_limbCompare, hlimbs, hlimbs]

/-- Settles O30: the word is the encoding of SHL, whose amount fits its field, and SHL writes the shifted register. -/
theorem shlResult : Obligations.ShlResult := by
  intro a sh s hsh
  exact ⟨decode_ruleWord (EncodesRuleWord.shl a sh) (decide_eq_true (by omega)), exec_shl_writes a sh s⟩

/-- Settles O31: the word is the encoding of SHR, whose amount fits its field, and SHR writes the shifted register. -/
theorem shrResult : Obligations.ShrResult := by
  intro a sh s hsh
  exact ⟨decode_ruleWord (EncodesRuleWord.shr a sh) (decide_eq_true (by omega)), exec_shr_writes a sh s⟩

/-- Settles O32: the word is the encoding of CMP, which writes the compare code of the two numbers. -/
theorem cmpResult : Obligations.CmpResult := by
  intro a b s
  exact ⟨decode_ruleWord (EncodesRuleWord.cmp a b) rfl, _, exec_cmp a b s, completed_setCmp s _, compareCode_iff⟩

/-- Settles O33: the word is the encoding of TSTZ, which writes the zero test of the number. -/
theorem tstzResult : Obligations.TstzResult := by
  intro a s
  refine ⟨decode_ruleWord (EncodesRuleWord.tstz a) rfl, _, exec_tstz a s, completed_setZf s _, ?_⟩
  rw [State.withCore_core, CoreState.complete_zf, CoreState.setZf_zf, zeroTest_eq_true_iff, CoreState.num_eq_zero]

end

section
/-! PROOF. What the data movement commands write (R120 to R127): the byte images of records and blocks read from a stream
and appended to it (R55 to R57), and each command's next states. -/

namespace Sys2Proof.Machine

/-! ## Streams, byte by byte (R8) -/

section Streams

variable {l m : List Byte} {k : Nat}

theorem byteAt_nil (k : Nat) : byteAt [] k = 0 := rfl

theorem byteAt_cons_zero (b : Byte) (l : List Byte) : byteAt (b :: l) 0 = b.toNat := rfl

theorem byteAt_cons_succ (b : Byte) (l : List Byte) (k : Nat) : byteAt (b :: l) (k + 1) = byteAt l k := rfl

theorem byteAt_append_of_lt (h : k < l.length) : byteAt (l ++ m) k = byteAt l k := by
  rw [byteAt, byteAt, List.getElem?_append_left h]

theorem byteAt_append_of_ge (h : l.length ≤ k) : byteAt (l ++ m) k = byteAt m (k - l.length) := by
  rw [byteAt, byteAt, List.getElem?_append_right h]

theorem byteAt_drop (l : List Byte) (n k : Nat) : byteAt (l.drop n) k = byteAt l (n + k) := by
  rw [byteAt, byteAt, List.getElem?_drop]

/-- Byte k of a number's image (R55, R57). -/
theorem byteAt_leBytes {n : Nat} (h : k < n) (v : Nat) : byteAt (leBytes n v) k = v / 2 ^ (8 * k) % 2 ^ 8 := by
  have hk : k < (leBytes n v).length := by rwa [leBytes_length]
  rw [byteAt, List.getElem?_eq_getElem hk, leBytes_getElem, Option.getD_some, BitVec.toNat_ofNat]

/-- The image of 0 has no byte but 0, and there is none beyond its end either. -/
theorem byteAt_leBytes_zero (n k : Nat) : byteAt (leBytes n 0) k = 0 := by
  by_cases h : k < n
  · rw [byteAt_leBytes h, Nat.zero_div, Nat.zero_mod]
  · rw [byteAt, List.getElem?_eq_none (by simpa using h)]
    rfl

/-- The value of a stream's first n bytes is their weighted sum; bytes beyond its end count as 0 (R55, R126). -/
theorem leValue_take (l : List Byte) (n : Nat) :
    leValue (l.take n) = ∑ k ∈ Finset.range n, byteAt l k * 2 ^ (8 * k) := by
  induction n generalizing l with
  | zero => simp [leValue]
  | succ n ih =>
    cases l with
    | nil => simp [leValue, byteAt_nil]
    | cons b bs =>
      have hweight (k : Nat) : byteAt bs k * 2 ^ (8 * (k + 1)) = 2 ^ 8 * (byteAt bs k * 2 ^ (8 * k)) := by ring
      rw [List.take_succ_cons, leValue, ih, Finset.sum_range_succ', Finset.mul_sum, Nat.add_comm]
      simp only [byteAt_cons_zero, byteAt_cons_succ, hweight, Nat.mul_zero, pow_zero, Nat.mul_one]

/-- Four bytes of a stream are one of its words (R122). -/
theorem leValue_take_drop_eq_wordAt (l : List Byte) (j : Nat) : leValue ((l.drop (4 * j)).take 4) = wordAt l j := by
  rw [leValue_take, wordAt]
  simp [Finset.sum_range_succ, byteAt_drop]

/-- The weighted sum of n words is that of their 4n bytes (R55, R122). -/
theorem sum_wordAt (l : List Byte) (n : Nat) :
    ∑ j ∈ Finset.range n, wordAt l j * 2 ^ (32 * j) = ∑ k ∈ Finset.range (4 * n), byteAt l k * 2 ^ (8 * k) := by
  induction n with
  | zero => rfl
  | succ n ih =>
    rw [Finset.sum_range_succ, ih, Nat.mul_succ]
    simp only [Finset.sum_range_succ, wordAt]
    ring

/-- A number's image written from a stream's value is the stream. -/
theorem leBytes_leValue (l : List Byte) : leBytes l.length (leValue l) = l := by
  induction l with
  | nil => rfl
  | cons b bs ih =>
    have hhead : BitVec.ofNat 8 (b.toNat + 2 ^ 8 * leValue bs) = b :=
      BitVec.eq_of_toNat_eq (by rw [BitVec.toNat_ofNat, Nat.add_mul_mod_self_left, Nat.mod_eq_of_lt b.isLt])
    have htail : (b.toNat + 2 ^ 8 * leValue bs) / 2 ^ 8 = leValue bs := by omega
    rw [List.length_cons, leBytes_succ, leValue, hhead, htail, ih]

end Streams

/-! ## Records and blocks (R55 to R57) -/

section Images

/-- A record's magnitude is the weighted sum of its words: 128 bytes are below 2^1024 (R55, R122). -/
theorem recordValue_toNat (l : List Byte) :
    (recordValue (l.take 132)).toNat = ∑ j ∈ Finset.range 32, wordAt l j * 2 ^ (32 * j) := by
  have hlt : leValue (l.take 128) < 2 ^ 1024 :=
    (leValue_lt _).trans_le (Nat.pow_le_pow_right Nat.two_pos (by simp; omega))
  rw [recordValue, List.take_take, BitVec.toNat_ofNat, sum_wordAt, ← leValue_take]
  exact Nat.mod_eq_of_lt hlt

/-- The guard limb is the record's 33rd word (R56, R122). -/
theorem recordGuard_eq_wordAt (l : List Byte) : recordGuard (l.take 132) = wordAt l 32 := by
  rw [recordGuard, List.drop_take, List.take_take]
  exact leValue_take_drop_eq_wordAt l 32

/-- A block is the weighted sum of its bytes: 32 bytes are below 2^256 (R57, R126). -/
theorem blockValue_toNat (l : List Byte) :
    (blockValue (l.take 32)).toNat = ∑ k ∈ Finset.range 32, byteAt l k * 2 ^ (8 * k) := by
  have hlt : leValue (l.take 32) < 2 ^ 256 :=
    (leValue_lt _).trans_le (Nat.pow_le_pow_right Nat.two_pos (by simp; omega))
  rw [blockValue, BitVec.toNat_ofNat, Nat.mod_eq_of_lt hlt, leValue_take]

theorem byteAt_recordBytes_of_lt {n : Nat} (h : n < 128) (v : Big) :
    byteAt (recordBytes v) n = v.toNat / 2 ^ (8 * n) % 2 ^ 8 := by
  rw [recordBytes, byteAt_append_of_lt (by simpa using h), byteAt_leBytes h]

theorem byteAt_recordBytes_of_ge {n : Nat} (h : 128 ≤ n) (v : Big) : byteAt (recordBytes v) n = 0 := by
  rw [recordBytes, byteAt_append_of_ge (by simpa using h), byteAt_leBytes_zero]

/-- A record read back is the value it was written from (R55). -/
theorem recordValue_recordBytes (v : Big) : recordValue (recordBytes v) = v := by
  have himage : (recordBytes v).take 128 = leBytes 128 v.toNat := by
    rw [recordBytes, List.take_append_of_le_length (by simp), List.take_of_length_le (by simp)]
  have hlt : v.toNat < 2 ^ (8 * 128) := v.isLt
  rw [recordValue, himage, leValue_leBytes, Nat.mod_eq_of_lt hlt, BitVec.ofNat_toNat, BitVec.setWidth_eq]

/-- A written record's guard limb is zero (R56). -/
theorem recordGuard_recordBytes (v : Big) : recordGuard (recordBytes v) = 0 := by
  rw [recordGuard, recordBytes, List.drop_left' (by simp), List.take_of_length_le (by simp), leValue_leBytes,
    Nat.zero_mod]

/-- A block written back is the 32 bytes it was read from (R57). -/
theorem blockBytes_blockValue {p : List Byte} (h : p.length = 32) : blockBytes (blockValue p) = p := by
  have hlt : leValue p < 2 ^ 256 := by
    have := leValue_lt p
    rwa [h] at this
  calc blockBytes (blockValue p) = leBytes p.length (leValue p) := by
        rw [blockBytes, blockValue, BitVec.toNat_ofNat, Nat.mod_eq_of_lt hlt, h]
    _ = p := leBytes_leValue p

end Images

/-! ## What each command writes -/

/-- The two key banks as R124 and R125 write them. -/
theorem CoreState.slot_eq_ite (c : CoreState) (k : Bank) (i : Slot) :
    c.slot k i = if k = .priv then c.kpriv[i.val] else c.kpub[i.val] := by
  cases k <;> rfl

/-- A bank's number as R124 and R125 write it. -/
theorem Bank.code_eq_ite (k : Bank) : k.code = if k = .priv then 0 else 1 := by
  cases k <;> rfl

section Writes

variable (s : State)

theorem exec_mov (d a : Reg) :
    exec (.mov d a) s = .next (s.withCore (s.core.setReg d (s.core.reg a)).complete) := rfl

theorem exec_ldi (d : Reg) (imm : Nat) :
    exec (.ldi d imm) s = .next (s.withCore (s.core.setReg d (immOperand imm)).complete) := rfl

theorem exec_kld (d : Reg) (k : Bank) (i : Slot) :
    exec (.kld d k i) s = .next (s.withCore (s.core.setReg d (s.core.slot k i)).complete) := rfl

theorem exec_kst (a : Reg) (k : Bank) (i : Slot) :
    exec (.kst a k i) s = .next (s.withCore (s.core.setSlot k i (s.core.reg a)).complete) := rfl

variable {s}

/-- LOAD with too few bytes for a record raises SHORT_READ (R122). -/
theorem exec_load_of_short (h : s.core.din.length < 132) (d : Reg) : exec (.load d) s = .next (s.raised 0x02) := by
  obtain ⟨-, hload⟩ | ⟨hlen, -⟩ | ⟨hlen, -⟩ := loadRecord_cases s.core d
  · exact congrArg (conclude s) hload
  · omega
  · omega

/-- LOAD of a record whose guard limb is nonzero raises BAD_GUARD (R122). -/
theorem exec_load_of_guard (h : 132 ≤ s.core.din.length) (hg : recordGuard (s.core.din.take 132) ≠ 0) (d : Reg) :
    exec (.load d) s = .next (s.raised 0x07) := by
  obtain ⟨hshort, -⟩ | ⟨-, -, hload⟩ | ⟨-, hzero, -⟩ := loadRecord_cases s.core d
  · omega
  · exact congrArg (conclude s) hload
  · exact absurd hzero hg

/-- LOAD of a record whose guard limb is zero takes it from DIN (R122). -/
theorem exec_load_of_record (h : 132 ≤ s.core.din.length) (hg : recordGuard (s.core.din.take 132) = 0) (d : Reg) :
    exec (.load d) s =
      .next (s.withCore ((s.core.dropDin 132).setReg d (recordValue (s.core.din.take 132))).complete) := by
  obtain ⟨hshort, -⟩ | ⟨-, hne, -⟩ | ⟨-, -, hload⟩ := loadRecord_cases s.core d
  · omega
  · exact absurd hg hne
  · exact congrArg (conclude s) hload

/-- LDBLK with fewer than 32 bytes in DIN raises SHORT_READ (R126). -/
theorem exec_ldblk_of_short (h : s.core.din.length < 32) : exec .ldblk s = .next (s.raised 0x02) := by
  obtain ⟨-, hload⟩ | ⟨hlen, -⟩ := loadBlock_cases s.core
  · exact congrArg (conclude s) hload
  · omega

/-- STORE and STBLK alike raise SHORT_WRITE when their bytes do not fit (R123, R127). -/
theorem conclude_doutOperand_of_full {bs : List Byte} (h : Config.doutDepth - s.core.dout.length < bs.length) :
    conclude s (s.core.doutOperand bs) = .next (s.raised 0x03) := by
  obtain ⟨-, hpush⟩ | ⟨hroom, -⟩ := s.core.doutOperand_cases bs
  · exact congrArg (conclude s) hpush
  · omega

/-- STORE and STBLK alike append their bytes when they fit (R123, R127). -/
theorem conclude_doutOperand_of_room {bs : List Byte} (h : bs.length ≤ Config.doutDepth - s.core.dout.length) :
    conclude s (s.core.doutOperand bs) = .next (s.withCore (s.core.pushDout bs).complete) := by
  obtain ⟨hfull, -⟩ | ⟨-, hpush⟩ := s.core.doutOperand_cases bs
  · omega
  · exact congrArg (conclude s) hpush

/-- STORE with room for a record appends it (R123). -/
theorem exec_store_of_room (h : 132 ≤ Config.doutDepth - s.core.dout.length) (a : Reg) :
    exec (.store a) s = .next (s.withCore (s.core.pushDout (recordBytes (s.core.reg a))).complete) :=
  conclude_doutOperand_of_room (by rwa [recordBytes_length])

/-- STBLK with room for a block appends it (R127). -/
theorem exec_stblk_of_room (h : 32 ≤ Config.doutDepth - s.core.dout.length) :
    exec .stblk s = .next (s.withCore (s.core.pushDout (blockBytes s.core.blk)).complete) :=
  conclude_doutOperand_of_room (by rwa [blockBytes_length])

/-- LOAD of a record that STORE wrote reads the value back and leaves what followed it (R123). -/
theorem exec_load_of_recordBytes {v : Big} {more : List Byte} (h : s.core.din = recordBytes v ++ more) (d : Reg) :
    exec (.load d) s = .next (s.withCore ((s.core.setDin more).setReg d v).complete) := by
  have hlen : 132 ≤ s.core.din.length := by
    rw [h, List.length_append, recordBytes_length]
    omega
  have htake : s.core.din.take 132 = recordBytes v := by rw [h, List.take_left' (recordBytes_length v)]
  have hdrop : s.core.din.drop 132 = more := by rw [h, List.drop_left' (recordBytes_length v)]
  have hguard : recordGuard (s.core.din.take 132) = 0 := by rw [htake, recordGuard_recordBytes]
  rw [exec_load_of_record hlen hguard, htake, recordValue_recordBytes, CoreState.dropDin, hdrop]

end Writes

end Sys2Proof.Machine
end

section
/-! PROOF. The statements of 42_data_movement.md: MOV, LDI, LOAD, STORE, KLD, KST, LDBLK and STBLK (R120 to R127), and
that LOAD undoes STORE (R123) and STBLK undoes LDBLK (R127). -/

open Sys2Proof Sys2Proof.Machine Sys2Proof.Laws

/-- Settles O25: what STORE appends is the record of R[a], and LOAD reads a record back. -/
theorem loadUndoesStore : Obligations.LoadUndoesStore := by
  intro a d s t u b more hroom ht hdout hdin
  cases (exec_store_of_room hroom a).symm.trans ht
  have hb : recordBytes (s.core.reg a) = b := List.append_cancel_left hdout
  subst hb
  exact ⟨_, exec_load_of_recordBytes hdin d, by simp⟩

/-- Settles O26: LDBLK leaves DOUT as it was, and the block it read is written back as the same 32 bytes. -/
theorem stblkUndoesLdblk : Obligations.StblkUndoesLdblk := by
  intro s t hlen hroom ht
  cases (exec_ldblk_of_length hlen).symm.trans ht
  refine ⟨_, exec_stblk_of_room hroom, ?_⟩
  simp [blockBytes_blockValue, hlen]

/-- Settles O17: the word is the encoding of MOV, which writes R[a] to R[d]. -/
theorem movResult : Obligations.MovResult := by
  intro d a s
  exact ⟨decode_ruleWord (EncodesRuleWord.mov d a) rfl, _, exec_mov s d a, completed_setReg s d _, by simp⟩

/-- Settles O18: the word is the encoding of LDI, whose immediate fits its field and so a register too. -/
theorem ldiResult : Obligations.LdiResult := by
  intro d imm s himm
  have hfield : imm < 2 ^ 16 := by omega
  have hreg : imm < 2 ^ 1024 := hfield.trans_le (Nat.pow_le_pow_right Nat.two_pos (by decide))
  refine ⟨decode_ruleWord (EncodesRuleWord.ldi d imm) (decide_eq_true hfield), _, exec_ldi s d imm,
    completed_setReg s d _, ?_⟩
  rw [State.withCore_core, CoreState.num, CoreState.reg_complete, CoreState.reg_setReg_self, immOperand,
    BitVec.toNat_ofNat, Nat.mod_eq_of_lt hreg]

/-- Settles O19: the guard limb is the stream's word 32, and the record's value the sum of the words below it. -/
theorem loadResult : Obligations.LoadResult := by
  intro d s
  rw [← recordGuard_eq_wordAt]
  refine ⟨decode_ruleWord (EncodesRuleWord.load d) rfl, (exec_load_of_short · d), (exec_load_of_guard · · d),
    fun hlen hguard => ⟨_, exec_load_of_record hlen hguard d, completed_dropDin_setReg s 132 d _, ?_, rfl⟩⟩
  rw [State.withCore_core, CoreState.num, CoreState.reg_complete, CoreState.reg_setReg_self, recordValue_toNat]

/-- Settles O20: STORE appends the record's 132 bytes, or none when they do not fit. -/
theorem storeResult : Obligations.StoreResult := by
  intro a s
  exact ⟨decode_ruleWord (EncodesRuleWord.store a) rfl,
    fun hfull => conclude_doutOperand_of_full (by rwa [recordBytes_length]),
    fun hroom => ⟨_, _, exec_store_of_room hroom a, completed_pushDout s _, rfl, recordBytes_length _,
      fun _ hn => byteAt_recordBytes_of_lt hn _, fun _ hn => byteAt_recordBytes_of_ge hn _⟩⟩

/-- Settles O21: the word is the encoding of KLD, which writes the slot's value to R[d]. -/
theorem kldResult : Obligations.KldResult := by
  intro d k i s
  rw [← Bank.code_eq_ite, ← CoreState.slot_eq_ite]
  exact ⟨decode_ruleWord (EncodesRuleWord.kld d k i) rfl, _, exec_kld s d k i, completed_setReg s d _, by simp⟩

/-- Settles O22: the word is the encoding of KST, which writes R[a] to the one slot. -/
theorem kstResult : Obligations.KstResult := by
  intro a k i s
  rw [← Bank.code_eq_ite]
  refine ⟨decode_ruleWord (EncodesRuleWord.kst a k i) rfl, _, exec_kst s a k i, completed_setSlot s k i _, ?_⟩
  rw [← CoreState.slot_eq_ite, State.withCore_core, CoreState.slot_complete, CoreState.slot_setSlot_self]

/-- Settles O23: 32 bytes are below 2^256, so BLK holds their sum. -/
theorem ldblkResult : Obligations.LdblkResult := fun s =>
  ⟨decode_ruleWord EncodesRuleWord.ldblk rfl, exec_ldblk_of_short,
    fun hlen => ⟨_, exec_ldblk_of_length hlen, completed_dropDin_setBlk s 32 _, blockValue_toNat _, rfl⟩⟩

/-- Settles O24: STBLK appends the block's 32 bytes, or none when they do not fit. -/
theorem stblkResult : Obligations.StblkResult := fun s =>
  ⟨decode_ruleWord EncodesRuleWord.stblk rfl,
    fun hfull => conclude_doutOperand_of_full (by rwa [blockBytes_length]),
    fun hroom => ⟨_, _, exec_stblk_of_room hroom, completed_pushDout s _, rfl, blockBytes_length _,
      fun _ hk => byteAt_leBytes hk _⟩⟩

end

section
/-! PROOF. What REDUCE, MULMOD and GCD write (R141 to R143), a zero modulus in every command that takes one (R140), and
that the shift-subtract remainder (R144) and the digit-serial product (R142) compute what REDUCE and MULMOD write. -/

namespace Sys2Proof.Machine

/-- A number that fits a register is read back from it (R21). -/
theorem CoreState.num_setReg_complete {v : Nat} (h : v < 2 ^ 1024) (c : CoreState) (d : Reg) :
    (c.setReg d (BitVec.ofNat 1024 v)).complete.num d = v := by
  rw [CoreState.num, CoreState.reg_complete, CoreState.reg_setReg_self, BitVec.toNat_ofNat, Nat.mod_eq_of_lt h]

/-! ## A zero modulus (R140, R163) -/

section ZeroModulus

variable {s : State} {n : Reg}

theorem exec_reduce_of_zero (h : s.core.num n = 0) (x : Reg) : exec (.reduce x n) s = .next (s.raised 0x04) := by
  obtain ⟨-, hzero⟩ | ⟨hpos, -⟩ := reduceReg_cases s.core x n
  · exact congrArg (conclude s) hzero
  · omega

theorem exec_mulmod_of_zero (h : s.core.num n = 0) (d a b : Reg) :
    exec (.mulmod d a b n) s = .next (s.raised 0x04) := by
  obtain ⟨-, hzero⟩ | ⟨hpos, -⟩ := mulmodReg_cases s.core d a b n
  · exact congrArg (conclude s) hzero
  · omega

theorem exec_modinv_of_zero (h : s.core.num n = 0) (d v : Reg) :
    exec (.modinv d v n) s = .next (s.raised 0x04) := by
  obtain ⟨-, hzero⟩ | ⟨hpos, -⟩ | ⟨hpos, -⟩ := modinvReg_cases s.core d v n
  · exact congrArg (conclude s) hzero
  · omega
  · omega

theorem exec_derive_of_zero (h : s.core.num n = 0) (v : Reg) : exec (.derive v n) s = .next (s.raised 0x04) := by
  obtain ⟨-, hzero⟩ | ⟨hpos, -⟩ := derivePub_cases s.core v n
  · exact congrArg (conclude s) hzero
  · omega

/-- DECRYPT tests both its key operands (R163). -/
theorem exec_decrypt_of_zero {u m : Reg} (h : s.core.num u = 0 ∨ s.core.num m = 0) (c : Reg) :
    exec (.decrypt c u m) s = .next (s.raised 0x06) := by
  obtain ⟨-, hzero⟩ | ⟨hu, hm, -⟩ := decryptBlk_cases s.core c u m
  · exact congrArg (conclude s) hzero
  · omega

end ZeroModulus

/-! ## What REDUCE and MULMOD write -/

section Remainders

variable {s : State} {n : Reg} (h : s.core.num n ≠ 0)

include h

/-- A remainder by a register's number fits a register. -/
theorem mod_num_lt (v : Nat) : v % s.core.num n < 2 ^ 1024 :=
  (Nat.mod_lt v (Nat.pos_of_ne_zero h)).trans (s.core.num_lt n)

/-- REDUCE completes with the remainder and writes nothing else (R141). -/
theorem exec_reduce_writes (x : Reg) :
    ∃ t, exec (.reduce x n) s = .next t ∧ Completed { reg := fun r => r == x } s t ∧
      t.core.num x = s.core.num x % s.core.num n := by
  obtain ⟨hzero, -⟩ | ⟨-, hok⟩ := reduceReg_cases s.core x n
  · exact absurd hzero h
  · exact ⟨_, congrArg (conclude s) hok, completed_setReg s x _,
      CoreState.num_setReg_complete (mod_num_lt h _) s.core x⟩

/-- MULMOD completes with the remainder of the exact product and writes nothing else (R142). -/
theorem exec_mulmod_writes (d a b : Reg) :
    ∃ t, exec (.mulmod d a b n) s = .next t ∧ Completed { reg := fun r => r == d } s t ∧
      t.core.num d = s.core.num a * s.core.num b % s.core.num n := by
  obtain ⟨hzero, -⟩ | ⟨-, hok⟩ := mulmodReg_cases s.core d a b n
  · exact absurd hzero h
  · exact ⟨_, congrArg (conclude s) hok, completed_setReg s d _,
      CoreState.num_setReg_complete (mod_num_lt h _) s.core d⟩

end Remainders

/-! ## Euclid's loop (R143) -/

/-- The remainder by a number no larger is less than half of what was divided (R143). -/
theorem two_mul_mod_lt {A B : Nat} (hB : 0 < B) (hle : B ≤ A) : 2 * (A % B) < A := by
  have hlt : A % B < B := Nat.mod_lt A hB
  have hrest : A % B ≤ A - B := Nat.mod_eq_sub_mod hle ▸ Nat.mod_le _ _
  omega

/-- A pass of the loop more than halves the product of the operands. -/
theorem mod_mul_lt_two_pow {fuel A B : Nat} (hB : 0 < B) (hle : B ≤ A) (h : A * B < 2 ^ (fuel + 1)) :
    A % B * B < 2 ^ fuel := by
  have hhalf : 2 * (A % B) * B < A * B := Nat.mul_lt_mul_of_pos_right (two_mul_mod_lt hB hle) hB
  rw [Nat.pow_succ'] at h
  linarith

/-- As many passes as the product of the operands has bits bring one of them to 0. -/
theorem gcdLoop_eq_gcd {fuel A B : Nat} (h : A * B < 2 ^ fuel) : gcdLoop fuel A B = Nat.gcd A B := by
  induction fuel generalizing A B with
  | zero =>
    obtain rfl | rfl := Nat.mul_eq_zero.1 (Nat.lt_one_iff.1 h)
    · rw [gcdLoop, Nat.zero_add, Nat.gcd_zero_left]
    · rw [gcdLoop, Nat.add_zero, Nat.gcd_zero_right]
  | succ fuel ih =>
    rw [gcdLoop]
    split_ifs with hne hle
    · rw [ih (mod_mul_lt_two_pow (Nat.pos_of_ne_zero hne.2) hle h), ← Nat.gcd_rec, Nat.gcd_comm]
    · rw [Nat.mul_comm] at h
      have hhalf := mod_mul_lt_two_pow (Nat.pos_of_ne_zero hne.1) (Nat.le_of_not_ge hle) h
      rw [ih (by rwa [Nat.mul_comm]), Nat.gcd_comm, ← Nat.gcd_rec]
    · obtain rfl | rfl : A = 0 ∨ B = 0 := by omega
      · rw [Nat.zero_add, Nat.gcd_zero_left]
      · rw [Nat.add_zero, Nat.gcd_zero_right]

/-- 2048 passes are enough for the numbers of two registers (R143). -/
theorem gcdValue_eq_gcd {A B : Nat} (hA : A < 2 ^ 1024) (hB : B < 2 ^ 1024) : gcdValue A B = Nat.gcd A B := by
  have hprod : A * B < 2 ^ (1024 + 1024) := by
    rw [pow_add]
    exact Nat.mul_lt_mul'' hA hB
  rw [gcdValue, gcdLoop_eq_gcd hprod]

theorem gcd_lt {A B M : Nat} (hA : A < M) (hB : B < M) : Nat.gcd A B < M := by
  obtain rfl | hpos := A.eq_zero_or_pos
  · rwa [Nat.gcd_zero_left]
  · exact (Nat.gcd_le_left B hpos).trans_lt hA

/-- GCD's next state: what the loop leaves, completed (R143). -/
theorem exec_gcd (d a b : Reg) (s : State) :
    exec (.gcd d a b) s = .next (s.withCore
      (s.core.setReg d (BitVec.ofNat 1024 (gcdValue (s.core.num a) (s.core.num b)))).complete) := rfl

/-- GCD completes with the greatest common divisor and writes nothing else (R143). -/
theorem exec_gcd_writes (d a b : Reg) (s : State) :
    ∃ t, exec (.gcd d a b) s = .next t ∧ Completed { reg := fun r => r == d } s t ∧
      t.core.num d = Nat.gcd (s.core.num a) (s.core.num b) := by
  have hA := s.core.num_lt a
  have hB := s.core.num_lt b
  have hvalue : gcdValue (s.core.num a) (s.core.num b) < 2 ^ 1024 := gcdValue_eq_gcd hA hB ▸ gcd_lt hA hB
  exact ⟨_, exec_gcd d a b s, completed_setReg s d _,
    (CoreState.num_setReg_complete hvalue s.core d).trans (gcdValue_eq_gcd hA hB)⟩

/-! ## The shift-subtract remainder (R144) -/

/-- Doubling at most `fuel` times reaches every X that is at most 2^fuel times the start. -/
theorem shiftUp_spec {fuel T X : Nat} (h : X ≤ T * 2 ^ fuel) :
    ∃ k ≤ fuel, shiftUp fuel T X = T * 2 ^ k ∧ X ≤ T * 2 ^ k := by
  induction fuel generalizing T with
  | zero => exact ⟨0, Nat.le_refl 0, (Nat.mul_one T).symm, h⟩
  | succ fuel ih =>
    rw [shiftUp]
    split
    next =>
      obtain ⟨k, hk, hshift, hX⟩ := ih (T := 2 * T) (by rwa [Nat.pow_succ', ← Nat.mul_assoc, Nat.mul_comm T] at h)
      have hdouble : 2 * T * 2 ^ k = T * 2 ^ (k + 1) := by ring
      exact ⟨k + 1, Nat.succ_le_succ hk, hshift.trans hdouble, hdouble ▸ hX⟩
    next hge => exact ⟨0, Nat.zero_le _, (Nat.mul_one T).symm, by rw [Nat.pow_zero]; omega⟩

/-- The second loop from T = N * 2^k, with R144's invariant X < 2 T. Two passes for each halving still to come and one
for a subtraction before them are enough. -/
theorem subtractDown_eq_mod {fuel k X N : Nat} (hX : X < 2 * (N * 2 ^ k))
    (hfuel : 2 * k + (if N * 2 ^ k ≤ X then 1 else 0) ≤ fuel) :
    subtractDown fuel X (N * 2 ^ k) N = X % N := by
  induction fuel generalizing k X with
  | zero =>
    have hlt : X < N * 2 ^ k := by
      by_contra hge
      rw [if_pos (Nat.le_of_not_lt hge)] at hfuel
      omega
    obtain rfl : k = 0 := by omega
    rw [Nat.pow_zero, Nat.mul_one] at hlt
    rw [subtractDown, Nat.mod_eq_of_lt hlt]
  | succ fuel ih =>
    rw [subtractDown]
    split_ifs with hN hT
    · rw [if_pos hT] at hfuel
      rw [ih (by omega) (by rw [if_neg (by omega)]; omega), Nat.sub_mul_mod hT]
    · rw [if_neg hT] at hfuel
      cases k with
      | zero => exact absurd (by rwa [Nat.pow_zero, Nat.mul_one]) hT
      | succ k =>
        have hdouble : N * 2 ^ (k + 1) = 2 * (N * 2 ^ k) := by rw [Nat.pow_succ', Nat.mul_left_comm]
        rw [hdouble, Nat.mul_div_cancel_left _ Nat.two_pos]
        exact ih (by omega) (by split <;> omega)
    · exact (Nat.mod_eq_of_lt (Nat.lt_of_not_le hN)).symm

/-- The shift-subtract remainder is the remainder (R144). -/
theorem shiftSubtractRemainder_eq_mod {X N : Nat} (hX : X < 2 ^ 1024) (hN : 0 < N) :
    shiftSubtractRemainder X N = X % N := by
  have hreach : X ≤ N * 2 ^ 1024 := hX.le.trans (Nat.le_mul_of_pos_left _ hN)
  obtain ⟨k, hk, hshift, hle⟩ := shiftUp_spec hreach
  have hpos : 0 < N * 2 ^ k := Nat.mul_pos hN (Nat.two_pow_pos k)
  rw [shiftSubtractRemainder, hshift]
  exact subtractDown_eq_mod (by omega) (by split <;> omega)

/-! ## The digit-serial product (R142) -/

/-- Above limb j of a number stands what is above limb j + 1, with limb j below it. -/
theorem div_two_pow_eq_limb (V j : Nat) : V / 2 ^ (32 * j) = V / 2 ^ (32 * (j + 1)) * 2 ^ 32 + limb V j := by
  rw [two_pow_limb_succ, ← Nat.div_div_eq_div_mul, limb, Nat.div_add_mod']

/-- After the passes over the limbs from 31 down to j, the running total is the remainder of A times what B has from
limb j up. -/
theorem mulmodDigits_eq_mod {B : Nat} (hB : B < 2 ^ (32 * 32)) (A N : Nat) {n j : Nat} (h : n + j = 32) :
    mulmodDigits A B N n = A * (B / 2 ^ (32 * j)) % N := by
  induction n generalizing j with
  | zero =>
    obtain rfl : j = 32 := by omega
    rw [mulmodDigits, Nat.div_eq_of_lt hB, Nat.mul_zero, Nat.zero_mod]
  | succ n ih =>
    have hj : 31 - n = j := by omega
    calc mulmodDigits A B N (n + 1)
        = (A * (B / 2 ^ (32 * (j + 1))) % N * 2 ^ 32 + A * limb B j) % N := by
          rw [mulmodDigits, digitPass, ih (j := j + 1) (by omega), hj]
      _ = (A * (B / 2 ^ (32 * (j + 1))) * 2 ^ 32 + A * limb B j) % N :=
          ((Nat.mod_modEq _ N).mul_right _).add_right _
      _ = A * (B / 2 ^ (32 * j)) % N := by rw [div_two_pow_eq_limb B j, mul_add A, Nat.mul_assoc]

end Sys2Proof.Machine
end

section
/-! PROOF. The statements of 43_modular.md: REDUCE, MULMOD and GCD (R141 to R143), the zero modulus (R140), the
shift-subtract remainder (R144) and the digit-serial product (R142). -/

open Sys2Proof Sys2Proof.Machine Sys2Proof.Laws

/-- Settles O16: each command tests its modulus before it writes; GCD, which has none, completes. -/
theorem zeroModulusRaises : Obligations.ZeroModulusRaises := by
  intro s n h d a b
  obtain ⟨t, ht, hdone, -⟩ := exec_gcd_writes d a n s
  exact ⟨exec_reduce_of_zero h d, exec_mulmod_of_zero h d a b, exec_modinv_of_zero h d a, exec_derive_of_zero h a,
    exec_decrypt_of_zero (.inr h) a, t, ht, hdone.rc⟩

/-- Settles O39: the loop's result is the greatest common divisor, which of 0 and a number is the number. -/
theorem gcdResult : Obligations.GcdResult := by
  intro d a b s
  obtain ⟨t, ht, hdone, hgcd⟩ := exec_gcd_writes d a b s
  refine ⟨decode_ruleWord (EncodesRuleWord.gcd d a b) rfl, t, ht, hdone, hgcd, fun hA => ?_, fun hB => ?_⟩
  · rw [hgcd, hA, Nat.gcd_zero_left]
  · rw [hgcd, hB, Nat.gcd_zero_right]

/-- Settles O41: both the procedure and REDUCE give X mod N. -/
theorem shiftSubtractIsRemainder : Obligations.ShiftSubtractIsRemainder := by
  refine ⟨fun _ _ => shiftSubtractRemainder_eq_mod, fun x n s h => ?_⟩
  obtain ⟨t, ht, -, hmod⟩ := exec_reduce_writes h x
  exact ⟨t, ht, hmod.trans (shiftSubtractRemainder_eq_mod (s.core.num_lt x) (Nat.pos_of_ne_zero h)).symm⟩

/-- Settles O42: after all 32 passes the running total is (A * B) mod N, which MULMOD writes. -/
theorem digitSerialProductMatches : Obligations.DigitSerialProductMatches := by
  intro d a b n s h
  obtain ⟨t, ht, -, hmod⟩ := exec_mulmod_writes h d a b
  refine ⟨t, ht, ?_⟩
  rw [hmod, mulmodDigits_eq_mod (s.core.num_lt b) _ _ (Nat.add_zero 32), Nat.mul_zero, Nat.pow_zero, Nat.div_one]

/-- Settles O37: the word is the encoding of REDUCE, which raises on a zero modulus and else writes the remainder. -/
theorem reduceResult : Obligations.ReduceResult := by
  intro x n s
  exact ⟨decode_ruleWord (EncodesRuleWord.reduce x n) rfl, (exec_reduce_of_zero · x), (exec_reduce_writes · x)⟩

/-- Settles O38: the word is the encoding of MULMOD, which raises on a zero modulus and else writes the remainder of the
product. -/
theorem mulmodResult : Obligations.MulmodResult := by
  intro d a b n s
  exact ⟨decode_ruleWord (EncodesRuleWord.mulmod d a b n) rfl, (exec_mulmod_of_zero · d a b),
    (exec_mulmod_writes · d a b)⟩

end

section
/-! PROOF. What MODINV writes (R150): Euclid's loop with one cofactor (R152) ends at the greatest common divisor and at what
V must be multiplied by, modulo M, to give it; and the inverse passes its validation (R153). -/

namespace Sys2Proof.Machine

/-! ## What a command leaves in the registers and in RC -/

/-- A register outside what a completed command writes keeps its number. -/
theorem Completed.num {w : Writes} {s t : State} (h : Completed w s t) {r : Reg} (hr : w.reg r = false) :
    t.core.num r = s.core.num r :=
  congrArg BitVec.toNat (h.reg r hr)

@[simp] theorem State.raised_rc (s : State) (code : BitVec 8) : (s.raised code).core.rc = code := rfl

/-! ## Euclid's loop with a cofactor (R152) -/

/-- A pass keeps R152's invariant, each remainder being its cofactor times V modulo M: the new remainder and the new
cofactor are made by the same subtraction. -/
theorem cofactor_pass {M V r0 r1 t0 t1 : Nat} (hM : 0 < M) (h0 : t0 * V ≡ r0 [MOD M]) (h1 : t1 * V ≡ r1 [MOD M]) :
    (((t0 : Int) - (r0 / r1 : Nat) * t1) % M).toNat * V ≡ r0 % r1 [MOD M] := by
  rw [← Int.natCast_modEq_iff] at h0 h1 ⊢
  push_cast at h0 h1 ⊢
  rw [Int.toNat_of_nonneg (Int.emod_nonneg _ (by omega)), Int.emod_def (r0 : Int)]
  calc ((t0 : Int) - r0 / r1 * t1) % M * V
      ≡ ((t0 : Int) - r0 / r1 * t1) * V [ZMOD M] := (Int.mod_modEq _ _).mul_right _
    _ = t0 * V - r0 / r1 * (t1 * V) := by ring
    _ ≡ r0 - r0 / r1 * r1 [ZMOD M] := h0.sub (h1.mul_left _)
    _ = r0 - r1 * (r0 / r1) := by rw [mul_comm (r1 : Int)]

/-- A pass of the loop takes the remainder of the two remainders (R152). -/
theorem inverseLoop_pass {r1 : Nat} (hr : r1 ≠ 0) (M fuel r0 t0 t1 : Nat) :
    inverseLoop M (fuel + 1) r0 r1 t0 t1 =
      inverseLoop M fuel r1 (r0 % r1) t1 (((t0 : Int) - (r0 / r1 : Nat) * t1) % M).toNat := by
  rw [inverseLoop, if_neg hr, Nat.mod_eq_sub_div_mul]

/-- The loop ends when the second remainder is 0, whatever passes are left (R152). -/
theorem inverseLoop_end (M fuel r0 t0 t1 : Nat) : inverseLoop M fuel r0 0 t0 t1 = (r0, t0) := by
  cases fuel with
  | zero => rfl
  | succ fuel => rw [inverseLoop, if_pos rfl]

/-- With as many passes as the product of the remainders has bits, the loop's cofactor times V is their greatest common
divisor modulo M. -/
theorem inverseLoop_modEq_gcd {M V fuel r0 r1 t0 t1 : Nat} (hM : 0 < M) (hlt : r1 < r0) (hfuel : r0 * r1 < 2 ^ fuel)
    (h0 : t0 * V ≡ r0 [MOD M]) (h1 : t1 * V ≡ r1 [MOD M]) :
    (inverseLoop M fuel r0 r1 t0 t1).2 * V ≡ Nat.gcd r0 r1 [MOD M] := by
  induction fuel generalizing r0 r1 t0 t1 with
  | zero =>
    obtain rfl : r1 = 0 := by
      obtain h | h := Nat.mul_eq_zero.1 (Nat.lt_one_iff.1 hfuel) <;> omega
    rwa [inverseLoop_end, Nat.gcd_zero_right]
  | succ fuel ih =>
    obtain rfl | hpos := r1.eq_zero_or_pos
    · rwa [inverseLoop_end, Nat.gcd_zero_right]
    · rw [inverseLoop_pass hpos.ne', Nat.gcd_comm, Nat.gcd_rec, Nat.gcd_comm]
      exact ih (Nat.mod_lt _ hpos) (Nat.mul_comm _ r1 ▸ mod_mul_lt_two_pow hpos hlt.le hfuel) h1 (cofactor_pass hM h0 h1)

/-- 2048 passes are enough for the numbers of two registers: what they give is an inverse when there is one (R150). -/
theorem inverseValue_mul_modEq_one {V M : Nat} (hM : 0 < M) (hlt : M < 2 ^ 1024) (hgcd : Nat.gcd V M = 1) :
    inverseValue V M * V ≡ 1 [MOD M] := by
  have hr : V % M < M := Nat.mod_lt V hM
  have hprod : M * (V % M) < 2 ^ 2048 := by
    rw [show 2048 = 1024 + 1024 from rfl, pow_add]
    exact Nat.mul_lt_mul'' hlt (hr.trans hlt)
  have hstart : 0 * V ≡ M [MOD M] := by rw [Nat.zero_mul, Nat.ModEq, Nat.zero_mod, Nat.mod_self]
  have hone : 1 * V ≡ V % M [MOD M] := by rw [Nat.one_mul]; exact (Nat.mod_modEq V M).symm
  calc inverseValue V M * V
      ≡ (inverseLoop M 2048 M (V % M) 0 1).2 * V [MOD M] := (Nat.mod_modEq _ M).mul_right V
    _ ≡ Nat.gcd M (V % M) [MOD M] := inverseLoop_modEq_gcd hM hr hprod hstart hone
    _ = 1 := by rw [Nat.gcd_comm, ← Nat.gcd_rec, Nat.gcd_comm, hgcd]

theorem inverseValue_lt {M : Nat} (hM : 0 < M) (V : Nat) : inverseValue V M < M := Nat.mod_lt _ hM

/-- Two inverses of V modulo M below M are the same (R150). -/
theorem inverse_unique {V M u w : Nat} (hgcd : Nat.gcd V M = 1) (hu : u < M) (hw : w < M)
    (hu1 : u * V ≡ 1 [MOD M]) (hw1 : w * V ≡ 1 [MOD M]) : u = w :=
  (Nat.ModEq.cancel_right_of_coprime (Nat.gcd_comm M V ▸ hgcd) (hu1.trans hw1.symm)).eq_of_lt_of_lt hu hw

/-! ## What MODINV writes -/

section Modinv

variable {s : State} {v m : Reg}

/-- MODINV raises NO_INVERSE when its operands have a common divisor (R150). -/
theorem exec_modinv_of_gcd_ne_one (hm : s.core.num m ≠ 0) (hgcd : Nat.gcd (s.core.num v) (s.core.num m) ≠ 1) (d : Reg) :
    exec (.modinv d v m) s = .next (s.raised 0x05) := by
  rw [← gcdValue_eq_gcd (s.core.num_lt v) (s.core.num_lt m)] at hgcd
  obtain ⟨hzero, -⟩ | ⟨-, -, herror⟩ | ⟨-, hone, -⟩ := modinvReg_cases s.core d v m
  · exact absurd hzero hm
  · exact congrArg (conclude s) herror
  · exact absurd hone hgcd

/-- MODINV completes with an inverse below the modulus and writes nothing else (R150). -/
theorem exec_modinv_writes (hm : s.core.num m ≠ 0) (hgcd : Nat.gcd (s.core.num v) (s.core.num m) = 1) (d : Reg) :
    ∃ t, exec (.modinv d v m) s = .next t ∧ Completed { reg := fun r => r == d } s t ∧
      t.core.num d < s.core.num m ∧ t.core.num d * s.core.num v ≡ 1 [MOD s.core.num m] := by
  have hpos : 0 < s.core.num m := Nat.pos_of_ne_zero hm
  have hlt := inverseValue_lt hpos (s.core.num v)
  have hvalue := CoreState.num_setReg_complete (hlt.trans (s.core.num_lt m)) s.core d
  obtain ⟨hzero, -⟩ | ⟨-, hne, -⟩ | ⟨-, -, hok⟩ := modinvReg_cases s.core d v m
  · exact absurd hzero hm
  · exact absurd (gcdValue_eq_gcd (s.core.num_lt v) (s.core.num_lt m) ▸ hgcd) hne
  · refine ⟨_, congrArg (conclude s) hok, completed_setReg s d _, hvalue.trans_lt hlt, ?_⟩
    rw [State.withCore_core, hvalue]
    exact inverseValue_mul_modEq_one hpos (s.core.num_lt m) hgcd

/-- A MODINV that ended with RC = 0 had a modulus and an inverse: its two errors leave their own codes in RC (R150). -/
theorem invertible_of_modinv_rc_zero {d : Reg} {t : State} (h : exec (.modinv d v m) s = .next t) (hrc : t.core.rc = 0) :
    s.core.num m ≠ 0 ∧ Nat.gcd (s.core.num v) (s.core.num m) = 1 := by
  have hm : s.core.num m ≠ 0 := fun hzero => by
    cases h.symm.trans (exec_modinv_of_zero hzero d v)
    exact absurd hrc (by simp)
  refine ⟨hm, by_contra fun hgcd => ?_⟩
  cases h.symm.trans (exec_modinv_of_gcd_ne_one hm hgcd d)
  exact absurd hrc (by simp)

end Modinv

end Sys2Proof.Machine
end

section
/-! PROOF. The statements of 44_modinv.md: MODINV (R150), and the validation of the inverse it writes (R153). -/

open Sys2Proof Sys2Proof.Machine Sys2Proof.Laws

/-- Settles O40: the word is the encoding of MODINV, whose loop gives an inverse when V and M have no common divisor; V
can be cancelled modulo M, so there is no other below M. -/
theorem modinvResult : Obligations.ModinvResult := by
  intro d v m s V M
  refine ⟨decode_ruleWord (EncodesRuleWord.modinv d v m) rfl, (exec_modinv_of_zero · d v),
    (exec_modinv_of_gcd_ne_one · · d), fun hm hgcd => ?_⟩
  obtain ⟨t, ht, hdone, hlt, hinv⟩ := exec_modinv_writes hm hgcd d
  exact ⟨t, ht, hdone, hlt, hinv, fun u hu hu1 => inverse_unique hgcd hu hlt hu1 hinv⟩

/-- Settles O43: MODINV leaves V and M in their registers, so MULMOD gives 1 mod M, which CMP compares with the 1 that
neither command has overwritten. -/
theorem inverseValidates : Obligations.InverseValidates := by
  intro d v m e one s t hdv hdm hd he hone ht hrc
  obtain ⟨hm, hgcd⟩ := invertible_of_modinv_rc_zero ht hrc
  obtain ⟨t', ht', hinverse, -, hinv⟩ := exec_modinv_writes hm hgcd d
  cases ht.symm.trans ht'
  have hv : t.core.num v = s.core.num v := hinverse.num (beq_false_of_ne hdv.symm)
  have hmt : t.core.num m = s.core.num m := hinverse.num (beq_false_of_ne hdm.symm)
  obtain ⟨u, hu, hproduct, hvalue⟩ := exec_mulmod_writes (hmt ▸ hm) e d v
  rw [hv, hmt] at hvalue
  have hvalue : u.core.num e = 1 % s.core.num m := hvalue.trans hinv
  have hone_u : u.core.num one = 1 := calc
    u.core.num one = t.core.num one := hproduct.num (beq_false_of_ne he)
    _ = s.core.num one := hinverse.num (beq_false_of_ne hd)
    _ = 1 := hone
  obtain ⟨-, w, hw, -, hlt, heq, -⟩ := cmpResult e one u
  rw [hone_u] at hlt heq
  refine ⟨u, w, hu, hw, fun hge => ?_, fun hM => ?_⟩
  · have hproduct_one : u.core.num e = 1 := hvalue.trans (Nat.mod_eq_of_lt hge)
    exact ⟨hproduct_one, heq.2 hproduct_one⟩
  · have hproduct_zero : u.core.num e = 0 := by rw [hvalue, hM, Nat.mod_self]
    exact ⟨hproduct_zero, hlt.2 (by omega)⟩

end

section
/-! PROOF. What VALSI, DERIVE, ENCRYPT and DECRYPT write (R160 to R163), and that the greedy loop recovers the subset that a
sum of a superincreasing sequence is taken over (R164). -/

namespace Sys2Proof.Machine

/-! ## Sums over a subset (R162) -/

/-- The sum of the first n elements of k over the set bits of b (R162). -/
def subsetSum (b : Nat → Bool) (k : Nat → Nat) (n : Nat) : Nat := ∑ i ∈ Finset.range n, if b i then k i else 0

section SubsetSums

variable (b : Nat → Bool) (k : Nat → Nat) (n : Nat)

@[simp] theorem subsetSum_zero : subsetSum b k 0 = 0 := rfl

theorem subsetSum_succ : subsetSum b k (n + 1) = subsetSum b k n + if b n then k n else 0 := Finset.sum_range_succ _ _

theorem subsetSum_le_sum : subsetSum b k n ≤ ∑ i ∈ Finset.range n, k i :=
  Finset.sum_le_sum fun i _ => by split <;> simp

variable {k n}

theorem subsetSum_congr {k' : Nat → Nat} (h : ∀ i < n, k i = k' i) : subsetSum b k n = subsetSum b k' n :=
  Finset.sum_congr rfl fun i hi => by rw [h i (Finset.mem_range.1 hi)]

/-- Elements multiplied by V modulo M: multiplying the sum by an inverse of V takes V away again (R164). -/
theorem subsetSum_mul_modEq {U V M : Nat} (hinv : U * V ≡ 1 [MOD M]) :
    subsetSum b (fun i => k i * V % M) n * U ≡ subsetSum b k n [MOD M] := by
  induction n with
  | zero => rw [subsetSum_zero, subsetSum_zero, Nat.zero_mul]
  | succ n ih =>
    rw [subsetSum_succ, subsetSum_succ, Nat.add_mul]
    refine ih.add ?_
    split
    next =>
      calc k n * V % M * U
          ≡ k n * V * U [MOD M] := (Nat.mod_modEq _ M).mul_right U
        _ = k n * (U * V) := by ring
        _ ≡ k n * 1 [MOD M] := hinv.mul_left (k n)
        _ = k n := Nat.mul_one _
    next => rw [Nat.zero_mul]

/-- A subset sum of a sequence whose total is below M is what the sum of the multiplied elements is taken back to
(R164). -/
theorem subsetSum_mul_mod {U V M : Nat} (hinv : U * V % M = 1) (hlt : ∑ i ∈ Finset.range n, k i < M) :
    subsetSum b (fun i => k i * V % M) n * U % M = subsetSum b k n := by
  have hone : U * V ≡ 1 [MOD M] := hinv ▸ (Nat.mod_modEq (U * V) M).symm
  exact Nat.mod_eq_of_modEq (subsetSum_mul_modEq b hone) ((subsetSum_le_sum b k n).trans_lt hlt)

/-- Of a superincreasing sequence, the last element is at most a subset sum exactly when the subset has it (R164). -/
theorem Superincreasing.le_subsetSum_succ_iff (h : Superincreasing k n) {i : Nat} (hi : i < n) :
    k i ≤ subsetSum b k (i + 1) ↔ b i = true := by
  have hrest : subsetSum b k i < k i := (subsetSum_le_sum b k i).trans_lt (h i hi)
  rw [subsetSum_succ]
  split
  next hb => simp [hb]
  next hb => simp [hb, hrest]

end SubsetSums

/-! ## VALSI's loop (R160) -/

section Validation

variable (k : Nat → Nat) (n : Nat)

theorem superincreasing_succ : Superincreasing k (n + 1) ↔ Superincreasing k n ∧ ∑ i ∈ Finset.range n, k i < k n :=
  Nat.forall_lt_succ_right

theorem valsiLoop_sum : (valsiLoop k n).1 = ∑ i ∈ Finset.range n, k i := by
  induction n with
  | zero => rfl
  | succ n ih => rw [Finset.sum_range_succ, ← ih, valsiLoop]

theorem valsiLoop_ok_iff : (valsiLoop k n).2 = true ↔ Superincreasing k n := by
  induction n with
  | zero => exact ⟨fun _ _ hi => absurd hi (Nat.not_lt_zero _), fun _ => rfl⟩
  | succ n ih =>
    rw [superincreasing_succ, ← ih, ← valsiLoop_sum, valsiLoop, Bool.and_eq_true, decide_eq_true_iff]

end Validation

/-! ## ENCRYPT's loop (R162) -/

/-- Adding to a sum kept modulo M with a flag for its wraps: the flag says whether the true sum is M or more. -/
theorem wrapped_add (M S x : Nat) : (decide (M ≤ S) || decide (S % M + x ≥ M)) = decide (M ≤ S + x) := by
  rw [← Bool.decide_or, decide_eq_decide]
  obtain hlt | hge := Nat.lt_or_ge S M
  · rw [Nat.mod_eq_of_lt hlt]; omega
  · exact iff_of_true (.inl hge) (by omega)

/-- The loop keeps the true subset sum modulo 2^1024, and whether it has reached 2^1024. -/
theorem encryptLoop_eq (b : Nat → Bool) (k : Nat → Nat) (n : Nat) :
    encryptLoop b k n = (subsetSum b k n % 2 ^ 1024, decide (2 ^ 1024 ≤ subsetSum b k n)) := by
  induction n with
  | zero => simp [encryptLoop]
  | succ n ih =>
    rw [encryptLoop, ih, subsetSum_succ]
    split
    next => rw [Nat.mod_add_mod, wrapped_add]
    next => rw [Nat.add_zero]

/-! ## DECRYPT's loop (R163) -/

/-- What one pass of the loop leaves of dat (R163). -/
def greedyStep (k : Nat → Nat) (i D : Nat) : Nat := if k i ≤ D then D - k i else D

/-- What the loop over i = n-1 down to 0 has left of D when the bits from n-1 down to i are decided (R163). -/
def greedyRest (k : Nat → Nat) : Nat → Nat → Nat → Nat
  | 0, D, _ => D
  | n + 1, D, i => if i ≤ n then greedyRest k n (greedyStep k n D) i else D

section Greedy

variable (k : Nat → Nat) (n D : Nat)

@[simp] theorem greedyRest_self : greedyRest k n D n = D := by
  cases n with
  | zero => rfl
  | succ n => rw [greedyRest, if_neg (by omega)]

variable {n} in
theorem greedyRest_succ_of_le {i : Nat} (h : i ≤ n) :
    greedyRest k (n + 1) D i = greedyRest k n (greedyStep k n D) i := by
  rw [greedyRest, if_pos h]

variable {n} in
/-- Each rest is made by one pass from the rest before it (R163). -/
theorem greedyRest_eq_step {i : Nat} (h : i < n) :
    greedyRest k n D i = greedyStep k i (greedyRest k n D (i + 1)) := by
  induction n generalizing D with
  | zero => exact absurd h (Nat.not_lt_zero i)
  | succ n ih =>
    rw [greedyRest_succ_of_le k D (Nat.lt_succ_iff.1 h)]
    obtain hi | rfl := Nat.lt_succ_iff_lt_or_eq.1 h
    · rw [greedyRest_succ_of_le k D hi, ih _ hi]
    · rw [greedyRest_self, greedyRest_self]

/-- One pass of the model's loop: it takes a `greedyStep`, and the bits found so far get one more below them. -/
theorem decryptLoop_succ (a : Nat) :
    decryptLoop k (n + 1) D (2 ^ (n + 1) * a) =
      decryptLoop k n (greedyStep k n D) (2 ^ n * Nat.bit (decide (k n ≤ D)) a) := by
  have hshift : 2 ^ (n + 1) * a = 2 ^ n * (2 * a) := by rw [pow_succ, Nat.mul_assoc]
  rw [decryptLoop, greedyStep, hshift, Nat.bit_val]
  split
  next hfits => rw [decide_eq_true hfits, Bool.toNat_true, Nat.mul_add, Nat.mul_one]
  next hfits => rw [decide_eq_false hfits, Bool.toNat_false, Nat.add_zero]

/-- Bit i of what the loop finds says whether element i fits in what is left when its turn comes; the bits from n up are
those found before (R163). -/
theorem decryptLoop_testBit (a i : Nat) :
    (decryptLoop k n D (2 ^ n * a)).testBit i =
      if i < n then decide (k i ≤ greedyRest k n D (i + 1)) else a.testBit (i - n) := by
  induction n generalizing D a with
  | zero => rw [decryptLoop, Nat.pow_zero, Nat.one_mul, if_neg (Nat.not_lt_zero i), Nat.sub_zero]
  | succ n ih =>
    rw [decryptLoop_succ, ih]
    obtain hlt | rfl | hgt := Nat.lt_trichotomy i n
    · rw [if_pos hlt, if_pos (hlt.trans n.lt_succ_self), greedyRest_succ_of_le k D hlt]
    · rw [if_neg (Nat.lt_irrefl i), if_pos i.lt_succ_self, Nat.sub_self, Nat.testBit_bit_zero, greedyRest_self]
    · have hpos : i - n = (i - (n + 1)).succ := by omega
      rw [if_neg hgt.not_gt, if_neg (by omega), hpos, Nat.testBit_bit_succ]

variable {k n}

/-- A pass on a subset sum of a superincreasing sequence takes the last element off it (R164). -/
theorem greedyStep_subsetSum (h : Superincreasing k n) (b : Nat → Bool) {i : Nat} (hi : i < n) :
    greedyStep k i (subsetSum b k (i + 1)) = subsetSum b k i := by
  have hfits := h.le_subsetSum_succ_iff b hi
  by_cases hb : b i = true
  · rw [greedyStep, if_pos (hfits.2 hb), subsetSum_succ, if_pos hb, Nat.add_sub_cancel]
  · rw [greedyStep, if_neg (mt hfits.1 hb), subsetSum_succ, if_neg hb, Nat.add_zero]

/-- Given a subset sum of a superincreasing sequence, the loop always has left the sum over the elements still to come
(R164). -/
theorem greedyRest_subsetSum (h : Superincreasing k n) (b : Nat → Bool) {i : Nat} (hi : i ≤ n) :
    greedyRest k n (subsetSum b k n) i = subsetSum b k i := by
  induction n with
  | zero => rw [Nat.le_zero.1 hi]; rfl
  | succ n ih =>
    obtain hi | rfl := Nat.le_succ_iff.1 hi
    · rw [greedyRest_succ_of_le k _ hi, greedyStep_subsetSum h b n.lt_succ_self]
      exact ih ((superincreasing_succ k n).1 h).1 hi
    · exact greedyRest_self k _ _

end Greedy

/-! ## What each command writes -/

section Writes

variable (s : State)

/-- VALSI's next state: the total, its overflow and the verdict, completed (R160). -/
theorem exec_valsi (d : Reg) :
    exec (.valsi d) s = .next (s.withCore
      (((s.core.setReg d (BitVec.ofNat 1024 (valsiLoop s.core.privAt 256).1)).setCf
        (totalOverflow (valsiLoop s.core.privAt 256).1)).setVf (valsiLoop s.core.privAt 256).2).complete) := rfl

/-- ENCRYPT's next state: the loop's sum and its wrap, completed (R162). -/
theorem exec_encrypt (d : Reg) :
    exec (.encrypt d) s = .next (s.withCore
      ((s.core.setReg d (BitVec.ofNat 1024 (encryptLoop s.core.blk.getLsbD s.core.pubAt 256).1)).setCf
        (encryptLoop s.core.blk.getLsbD s.core.pubAt 256).2).complete) := rfl

/-- VALSI completes with the verdict, the total modulo 2^1024 and its overflow, and writes nothing else (R160). -/
theorem exec_valsi_writes (d : Reg) :
    ∃ t, exec (.valsi d) s = .next t ∧ Completed { reg := fun r => r == d, cf := true, vf := true } s t ∧
      (t.core.vf = true ↔ Superincreasing s.core.privAt 256) ∧
      t.core.num d = (∑ i ∈ Finset.range 256, s.core.privAt i) % 2 ^ 1024 ∧
      (t.core.cf = true ↔ 2 ^ 1024 ≤ ∑ i ∈ Finset.range 256, s.core.privAt i) := by
  refine ⟨_, exec_valsi s d, completed_setReg_setCf_setVf s d _ _ _, ?_, ?_, ?_⟩
  · rw [State.withCore_core, CoreState.complete_vf, CoreState.setVf_vf, valsiLoop_ok_iff]
  · rw [State.withCore_core, CoreState.num, CoreState.reg_complete, CoreState.reg_setVf, CoreState.reg_setCf,
      CoreState.reg_setReg_self, BitVec.toNat_ofNat, valsiLoop_sum]
  · rw [State.withCore_core, CoreState.complete_cf, CoreState.setVf_cf, CoreState.setCf_cf, valsiLoop_sum,
      totalOverflow, decide_eq_true_iff]

/-- ENCRYPT completes with the subset sum modulo 2^1024 and its wrap, and writes nothing else (R162). -/
theorem exec_encrypt_writes (d : Reg) :
    ∃ t, exec (.encrypt d) s = .next t ∧ Completed { reg := fun r => r == d, cf := true } s t ∧
      t.core.num d = subsetSum s.core.blk.getLsbD s.core.pubAt 256 % 2 ^ 1024 ∧
      (t.core.cf = true ↔ 2 ^ 1024 ≤ subsetSum s.core.blk.getLsbD s.core.pubAt 256) := by
  refine ⟨_, exec_encrypt s d, completed_setReg_setCf s d _ _, ?_, ?_⟩
  · rw [State.withCore_core, CoreState.num_setReg_setCf_complete, encryptLoop_eq, Nat.mod_mod]
  · rw [State.withCore_core, CoreState.complete_cf, CoreState.setCf_cf, encryptLoop_eq, decide_eq_true_iff]

variable {s}

/-- DERIVE completes with every element multiplied by V modulo M, and writes nothing else (R161). -/
theorem exec_derive_writes {m : Reg} (h : s.core.num m ≠ 0) (v : Reg) :
    ∃ t, exec (.derive v m) s = .next t ∧ Completed { slot := fun k _ => k == .pub } s t ∧
      ∀ i : Slot, (t.core.slot .pub i).toNat = (s.core.slot .priv i).toNat * s.core.num v % s.core.num m := by
  obtain ⟨hzero, -⟩ | ⟨-, hok⟩ := derivePub_cases s.core v m
  · exact absurd hzero h
  · refine ⟨_, congrArg (conclude s) hok, completed_setKpub s _, fun i => ?_⟩
    rw [State.withCore_core, CoreState.slot_complete, CoreState.slot_setKpub_pub, bankOf_getElem _ _ i.isLt,
      BitVec.toNat_ofNat, CoreState.privAt_eq, Nat.mod_eq_of_lt (mod_num_lt h _)]

/-- DECRYPT completes with the bits the greedy loop decides, and writes nothing but BLK (R163). -/
theorem exec_decrypt_writes {u m : Reg} (hu : s.core.num u ≠ 0) (hm : s.core.num m ≠ 0) (c : Reg) :
    ∃ t, exec (.decrypt c u m) s = .next t ∧ Completed { blk := true } s t ∧
      ∀ i < 256, (t.core.blk.getLsbD i = true ↔
        s.core.privAt i ≤ greedyRest s.core.privAt 256 (s.core.num c * s.core.num u % s.core.num m) (i + 1)) := by
  obtain ⟨hzero, -⟩ | ⟨-, -, hok⟩ := decryptBlk_cases s.core c u m
  · exact absurd hzero (not_or.2 ⟨hu, hm⟩)
  · refine ⟨_, congrArg (conclude s) hok, completed_setBlk s _, fun i hi => ?_⟩
    have hbit := decryptLoop_testBit s.core.privAt 256 (s.core.num c * s.core.num u % s.core.num m) 0 i
    rw [if_pos hi, Nat.mul_zero] at hbit
    rw [State.withCore_core, CoreState.complete_blk, CoreState.setBlk_blk, BitVec.getLsbD_ofNat, hbit,
      decide_eq_true hi, Bool.true_and, decide_eq_true_iff]

end Writes

/-! ## The steps of the round trip (R164) -/

section RoundTrip

/-- A bank's elements as numbers are given by its slots. -/
theorem CoreState.privAt_congr {c c' : CoreState} (h : ∀ i, c'.slot .priv i = c.slot .priv i) : c'.privAt = c.privAt := by
  have hbank : c'.kpriv = c.kpriv := Vector.ext fun i hi => h ⟨i, hi⟩
  funext i
  rw [CoreState.privAt, CoreState.privAt, hbank]

variable {s t : State}

/-- After VALSI has accepted a key without overflow, the key is superincreasing and the register holds its total
(R160). -/
theorem key_of_valsi {d : Reg} (h : exec (.valsi d) s = .next t) (hvf : t.core.vf = true) (hcf : t.core.cf = false) :
    Superincreasing t.core.privAt 256 ∧ t.core.num d = ∑ i ∈ Finset.range 256, t.core.privAt i := by
  obtain ⟨t', ht', hdone, hverdict, htotal, hover⟩ := exec_valsi_writes s d
  cases h.symm.trans ht'
  have hfits := Nat.not_le.1 (mt hover.2 (ne_true_of_eq_false hcf))
  rw [CoreState.privAt_congr fun i => hdone.slot .priv i rfl]
  exact ⟨hverdict.1 hvf, htotal.trans (Nat.mod_eq_of_lt hfits)⟩

/-- Where the slots of a public key are as DERIVE left them, each element is the private one times V modulo M (R161). -/
theorem pubAt_of_derive {v m : Reg} (hm : s.core.num m ≠ 0) (h : exec (.derive v m) s = .next t) {c : CoreState}
    (hc : ∀ i, c.slot .pub i = t.core.slot .pub i) {i : Nat} (hi : i < 256) :
    c.pubAt i = s.core.privAt i * s.core.num v % s.core.num m := by
  obtain ⟨t', ht', -, hpub⟩ := exec_derive_writes hm v
  cases h.symm.trans ht'
  calc c.pubAt i
      = (t.core.slot .pub ⟨i, hi⟩).toNat := by rw [← hc]; exact c.pubAt_eq ⟨i, hi⟩
    _ = (s.core.slot .priv ⟨i, hi⟩).toNat * s.core.num v % s.core.num m := hpub ⟨i, hi⟩
    _ = s.core.privAt i * s.core.num v % s.core.num m := by rw [← CoreState.privAt_eq]

/-- An ENCRYPT that did not wrap gives the true subset sum (R162). -/
theorem num_of_encrypt {d : Reg} (h : exec (.encrypt d) s = .next t) (hcf : t.core.cf = false) :
    t.core.num d = subsetSum s.core.blk.getLsbD s.core.pubAt 256 := by
  obtain ⟨t', ht', -, hsum, hover⟩ := exec_encrypt_writes s d
  cases h.symm.trans ht'
  have hfits := Nat.not_le.1 (mt hover.2 (ne_true_of_eq_false hcf))
  exact hsum.trans (Nat.mod_eq_of_lt hfits)

/-- DECRYPT of what comes to a subset sum of a superincreasing key sets BLK to the subset (R163, R164). -/
theorem exec_decrypt_of_subsetSum {c u m : Reg} {b : Block} (hu : s.core.num u ≠ 0) (hm : s.core.num m ≠ 0)
    (hkey : Superincreasing s.core.privAt 256)
    (hsum : s.core.num c * s.core.num u % s.core.num m = subsetSum b.getLsbD s.core.privAt 256) :
    ∃ t, exec (.decrypt c u m) s = .next t ∧ t.core.rc = 0 ∧ t.core.blk = b := by
  obtain ⟨t, ht, hdone, hbits⟩ := exec_decrypt_writes hu hm c
  refine ⟨t, ht, hdone.rc, BitVec.eq_of_getLsbD_eq fun i hi => Bool.eq_iff_iff.2 ?_⟩
  rw [hbits i hi, hsum, greedyRest_subsetSum hkey _ hi, hkey.le_subsetSum_succ_iff _ hi]

end RoundTrip

end Sys2Proof.Machine
end

section
/-! PROOF. The statements of 45_knapsack.md: VALSI, DERIVE, ENCRYPT and DECRYPT (R160 to R163), and that decryption undoes
encryption (R164). -/

open Sys2Proof Sys2Proof.Machine Sys2Proof.Laws

/-- Settles O44: the word is the encoding of VALSI, whose loop keeps the exact sum and compares each element with it. -/
theorem valsiResult : Obligations.ValsiResult := by
  intro d s
  exact ⟨decode_ruleWord (EncodesRuleWord.valsi d) rfl, exec_valsi_writes s d⟩

/-- Settles O45: the word is the encoding of DERIVE, which raises on a zero modulus and else writes every element's
remainder. -/
theorem deriveResult : Obligations.DeriveResult := by
  intro v m s
  exact ⟨decode_ruleWord (EncodesRuleWord.derive v m) rfl, (exec_derive_of_zero · v), (exec_derive_writes · v)⟩

/-- Settles O46: the word is the encoding of ENCRYPT, whose loop keeps the subset sum modulo 2^1024 and its wrap. -/
theorem encryptResult : Obligations.EncryptResult := by
  intro d s
  exact ⟨decode_ruleWord (EncodesRuleWord.encrypt d) rfl, exec_encrypt_writes s d⟩

/-- Settles O47: the word is the encoding of DECRYPT; dat is what the greedy loop has left, each made from the one before
it by a pass. -/
theorem decryptResult : Obligations.DecryptResult := by
  intro c u m s
  refine ⟨decode_ruleWord (EncodesRuleWord.decrypt c u m) rfl, (exec_decrypt_of_zero · c), fun hu hm => ?_⟩
  obtain ⟨t, ht, hdone, hbits⟩ := exec_decrypt_writes hu hm c
  exact ⟨t, _, ht, hdone, greedyRest_self _ _ _, fun i hi => ⟨hbits i hi, greedyRest_eq_step _ _ hi⟩⟩

/-- Settles O48: the ciphertext is the true subset sum of the elements times V modulo M, so times U modulo M it is that of
the private elements, which is below M; and from it the greedy loop recovers the subset of the superincreasing key. -/
theorem decryptUndoesEncrypt : Obligations.DecryptUndoesEncrypt := by
  intro e v m u s s₁ s₂ hvalsi hvf hcf hlt hinv hderive d p p' hpub hencrypt hwrap rc ru rm q hpriv hc hu hm
  obtain ⟨hkey, htotal⟩ := key_of_valsi hvalsi hvf hcf
  rw [htotal] at hlt
  have hm₁ : s₁.core.num m ≠ 0 := Nat.ne_zero_of_lt hlt
  have hu₁ : s₁.core.num u ≠ 0 := fun hzero => by simp [hzero] at hinv
  have hcipher : p'.core.num d =
      subsetSum p.core.blk.getLsbD (fun i => s₁.core.privAt i * s₁.core.num v % s₁.core.num m) 256 :=
    (num_of_encrypt hencrypt hwrap).trans (subsetSum_congr _ fun _ => pubAt_of_derive hm₁ hderive hpub)
  have hnumc : q.core.num rc = p'.core.num d := congrArg BitVec.toNat hc
  have hnumu : q.core.num ru = s₁.core.num u := congrArg BitVec.toNat hu
  have hnumm : q.core.num rm = s₁.core.num m := congrArg BitVec.toNat hm
  have hbank : q.core.privAt = s₁.core.privAt := CoreState.privAt_congr hpriv
  refine exec_decrypt_of_subsetSum (hnumu ▸ hu₁) (hnumm ▸ hm₁) (hbank ▸ hkey) ?_
  rw [hnumc, hnumu, hnumm, hbank, hcipher, subsetSum_mul_mod _ hinv hlt]

end

section
/-! PROOF. What FLUSH and CLRE write (R180, R181). -/

namespace Sys2Proof.Machine

/-- FLUSH's next state: both FIFOs empty (R181). -/
theorem exec_flush (s : State) :
    exec .flush s = .next (s.withCore ((s.core.setDin []).setDout []).complete) := rfl

/-- CLRE's next state: the three sticky bits cleared (R180). -/
theorem exec_clre (s : State) : exec .clre s = .next (s.withCore s.core.clearSticky.complete) := rfl

end Sys2Proof.Machine
end

section
/-! PROOF. The statements of 46_system.md: CLRE (R180) and FLUSH (R181). -/

open Sys2Proof Sys2Proof.Machine Sys2Proof.Laws

/-- Settles O49: the word is the encoding of FLUSH, whose writes are those of the two FIFOs, each made empty. -/
theorem flushResult : Obligations.FlushResult := by
  intro s
  exact ⟨decode_ruleWord EncodesRuleWord.flush rfl, _, exec_flush s, completed_setDin_setDout s [] [],
    by simp, by simp⟩

/-- Settles O50: the word is the encoding of CLRE, which clears the sticky bits; completing it sets none of them. -/
theorem clreResult : Obligations.ClreResult := by
  intro s
  exact ⟨decode_ruleWord EncodesRuleWord.clre rfl, _, exec_clre s, completed_clearSticky s,
    by simp, by simp, by simp⟩

end

section
/-! PROOF. The step that serves the host's reset action (70_reset_and_hazards.md R250, R251; log 6). -/

namespace Sys2Proof.Machine

/-- A reset takes its action from the queue and replaces the CORE, whatever it held, by the reset CORE (R250). -/
theorem step_reset {s : State} {rest : List HostAction} (hp : s.host.pending = .reset :: rest) :
    step s = .next ((s.setPending rest).withCore CoreState.reset) := by
  have hfetch : fetch s = serve .reset (s.setPending rest) := by rw [fetch, hp]
  rw [step, hfetch, serve]

end Sys2Proof.Machine
end

section
/-! PROOF. The statement of 70_reset_and_hazards.md: reset (R250). -/

open Sys2Proof Sys2Proof.Machine

/-- Settles O6: the step puts the reset CORE in place, whose components are those of the machine after reset (O1); the
rest of the queue and the replies are not the CORE's. -/
theorem resetActionResets : Obligations.ResetActionResets := by
  intro s rest hp
  exact ⟨_, step_reset hp, rfl, rfl, resetState⟩

end
